-- ==== Sys2Proof/Word.lean ====
section
/-! DEFINITION. The bit vectors of the block: bytes, command words, their two fields, checksums and status codes. -/

namespace Sys2Proof

/-- One byte of `KBUF`, `BIN` or `BOUT` (20_memory.md R40). -/
abbrev Byte := BitVec 8

/-- The command word `X_cmd` (30_encoding.md R62). -/
abbrev CmdWord := BitVec 20

/-- The field `op`, bits 19:16 of a command word (30_encoding.md R62). -/
abbrev OpCode := BitVec 4

/-- The field `len`, bits 15:0 of a command word, and the field `X_count` (30_encoding.md R62, R67). -/
abbrev Len := BitVec 16

/-- The checksum register and the result `K_crc` (41_crc32.md R101). -/
abbrev Crc := BitVec 32

/-- One element of the queue: the unsigned value of its `WIDTH` bits. The queue never interprets it
(10_state.md R21); `WIDTH` is a parameter, so the bound `< 2 ^ WIDTH` is part of the state's invariant.
DESIGN CHOICE (log 4). -/
abbrev Elem := Nat

end Sys2Proof
end

