-- ==== Sys2Proof/Config.lean ====
section
/-! DEFINITION. What an implementation fixes (the parameters of 00_scope.md R7) and the free values: what the
spec calls unspecified, given by constants without a body, about which nothing can be proved. -/

namespace Sys2Proof

/-- The implementation parameters (00_scope.md R7). A state carries its own, and no step changes them, so
a statement about every state is one about every value of the parameters (log 3). -/
structure Params where
  /-- `WIDTH`: bits of one queue element -/
  width : Nat
  /-- `CAPACITY`: slots of `MEM` -/
  capacity : Nat
  /-- `MAX_RECORD`: most bytes COBSENC accepts -/
  maxRecord : Nat
  /-- `MAX_SPAN`: most bytes CRC32 accepts, depth of `KBUF` -/
  maxSpan : Nat
  deriving DecidableEq, Repr

/-- `MAX_ENCODED`: depth of `BIN` and `BOUT`, most bytes COBSDEC accepts (00_scope.md R7). -/
def Params.maxEncoded (p : Params) : Nat := p.maxRecord + p.maxRecord / 254 + 1

/-- `IDXW`: the least `k >= 1` with `2^k >= CAPACITY` (00_scope.md R7). -/
def Params.idxw (p : Params) : Nat := Nat.log2 (p.capacity - 1) + 1

/-- `LENW`: the width of `len` and of every count (00_scope.md R7). -/
def Params.lenw (_ : Params) : Nat := 16

/-- The values `State.reset` uses: those of program P3 of 95_test_vectors.md. DESIGN CHOICE (log 3). -/
def Config.resetParams : Params := { width := 8, capacity := 32, maxRecord := 25, maxSpan := 25 }

/-- The three spaces of elements (20_memory.md R40). -/
inductive ElemSpace where
  | mem
  | pbuf
  | cbuf
  deriving DecidableEq, Repr

/-- The three spaces of bytes (20_memory.md R40). -/
inductive ByteSpace where
  | kbuf
  | bin
  | bout
  deriving DecidableEq, Repr

/-- The free value of an element that nothing has written since its space was made unspecified, by space,
epoch of the space and index (93_implementation_defined.md U5, U6). Log 5. -/
opaque Config.freeElem : ElemSpace → Nat → Nat → Elem

/-- The free value of a byte that nothing has written since its space was made unspecified
(93_implementation_defined.md U5, U8). Log 5. -/
opaque Config.freeByte : ByteSpace → Nat → Nat → Byte

/-- `C_rdata` where the spec gives it no value (93_implementation_defined.md U7). Log 7. -/
opaque Config.freeRdata : Nat → Elem

/-- `K_crc` where the spec gives it no value (93_implementation_defined.md U7). Log 7. -/
opaque Config.freeCrc : Nat → Crc

/-- `X_status` while `X_rsp_valid = 0`, by number of the port (93_implementation_defined.md U7). Log 8. -/
opaque Config.freeStatus : Nat → Nat → BitVec 2

/-- `X_count` while `X_rsp_valid = 0`, by number of the port (93_implementation_defined.md U7). Log 8. -/
opaque Config.freeCount : Nat → Nat → Len

/-- What the consumer agent sees in `CBUF[i]` while a POPBLK is in flight (93_implementation_defined.md U6).
Log 10. -/
opaque Config.freeAgentView : Nat → Nat → Elem

end Sys2Proof
end

