-- ==== Sys2Proof/Syntax.lean ====
section
/-! DEFINITION. The ports and the commands: one constructor per row of the opcode table. -/

namespace Sys2Proof

/-- The four command ports (00_scope.md R11, 30_encoding.md R60). -/
inductive Port where
  | p
  | c
  | k
  | b
  deriving DecidableEq, Repr

/-- The port's number, for the free values of its outputs. -/
def Port.index : Port → Nat
  | .p => 0
  | .c => 1
  | .k => 2
  | .b => 3

/-- A decoded command word (30_encoding.md R61). Every constructor keeps the field `len`, the ones that
ignore it too (R63), so that no bit of a word is lost. -/
inductive Instr where
  | nop (len : Len)
  | push (len : Len)
  | pushblk (len : Len)
  | pop (len : Len)
  | popblk (len : Len)
  | free (len : Len)
  | occ (len : Len)
  | clear (len : Len)
  | crc32 (len : Len)
  | cobsenc (len : Len)
  | cobsdec (len : Len)
  | reservedB (len : Len)
  | reservedC (len : Len)
  | reservedD (len : Len)
  | reservedE (len : Len)
  | reservedF (len : Len)
  deriving DecidableEq, Repr

/-- The field `len` of the command. -/
def Instr.len : Instr → Len
  | .nop n | .push n | .pushblk n | .pop n | .popblk n | .free n | .occ n | .clear n
  | .crc32 n | .cobsenc n | .cobsdec n
  | .reservedB n | .reservedC n | .reservedD n | .reservedE n | .reservedF n => n

end Sys2Proof
end

