-- ==== Sys2Proof/WellFormed.lean ====
section
/-! DEFINITION. The checks a user of the block can make before issuing anything: the parameters' constraints, and
the three reasons for which a command would be refused. The machine makes its own checks (Machine/Operands.lean); an
obligation says that the two agree. -/

namespace Sys2Proof

/-- The constraints of 00_scope.md R7. -/
def Params.ok (p : Params) : Bool :=
  decide (1 ≤ p.width) && decide (2 ≤ p.capacity) && decide (p.capacity ≤ 65536)
    && decide (p.maxEncoded ≤ 65535) && decide (p.maxSpan ≤ 65535)

/-- The operation code is one of 0x0 to 0xA (30_encoding.md R65). -/
def Instr.defined : Instr → Bool
  | .nop _ | .push _ | .pushblk _ | .pop _ | .popblk _ | .free _ | .occ _ | .clear _
  | .crc32 _ | .cobsenc _ | .cobsdec _ => true
  | .reservedB _ | .reservedC _ | .reservedD _ | .reservedE _ | .reservedF _ => false

/-- The column "Ports" of 30_encoding.md R61. -/
def Instr.ports : Instr → List Port
  | .nop _ => [.p, .c, .k, .b]
  | .push _ | .pushblk _ => [.p]
  | .pop _ | .popblk _ | .clear _ => [.c]
  | .free _ | .occ _ => [.p, .c]
  | .crc32 _ => [.k]
  | .cobsenc _ | .cobsdec _ => [.b]
  | .reservedB _ | .reservedC _ | .reservedD _ | .reservedE _ | .reservedF _ => []

/-- The length limits of 30_encoding.md R69, line 3. -/
def Instr.lenFits (p : Params) : Instr → Bool
  | .crc32 n => decide (n.toNat ≤ p.maxSpan)
  | .cobsenc n => decide (n.toNat ≤ p.maxRecord)
  | .cobsdec n => decide (n.toNat ≤ p.maxEncoded)
  | .nop _ | .push _ | .pushblk _ | .pop _ | .popblk _ | .free _ | .occ _ | .clear _
  | .reservedB _ | .reservedC _ | .reservedD _ | .reservedE _ | .reservedF _ => true

/-- Why a command is not well formed on a port, in the order of 30_encoding.md R69. -/
inductive IllFormed where
  | reservedOp
  | wrongPort
  | lenOverLimit
  deriving DecidableEq, Repr

/-- The first check of 30_encoding.md R69 that the command fails on port `x`, if any. -/
def Instr.illFormed? (p : Params) (x : Port) (i : Instr) : Option IllFormed :=
  if !i.defined then some .reservedOp
  else if !i.ports.contains x then some .wrongPort
  else if !i.lenFits p then some .lenOverLimit
  else none

/-- The command is accepted on port `x` (30_encoding.md R69). -/
def Instr.wellFormed (p : Params) (x : Port) (i : Instr) : Bool := (i.illFormed? p x).isNone

end Sys2Proof
end

