-- ==== Sys2Proof/Decode.lean ====
section
/-! DEFINITION. The decoder of command words, total and rejecting by name, and the encoder. -/

namespace Sys2Proof

/-- `op = X_cmd[19:16]` (30_encoding.md R62). -/
def opField (w : CmdWord) : OpCode := w.extractLsb' 16 4

/-- `len = X_cmd[15:0]` (30_encoding.md R62). -/
def lenField (w : CmdWord) : Len := w.extractLsb' 0 16

/-- The opcode map (30_encoding.md R61). The last row is 0xF, the only value left. -/
def instrOf (op : OpCode) (n : Len) : Instr :=
  match op.toNat with
  | 0x0 => .nop n
  | 0x1 => .push n
  | 0x2 => .pushblk n
  | 0x3 => .pop n
  | 0x4 => .popblk n
  | 0x5 => .free n
  | 0x6 => .occ n
  | 0x7 => .clear n
  | 0x8 => .crc32 n
  | 0x9 => .cobsenc n
  | 0xA => .cobsdec n
  | 0xB => .reservedB n
  | 0xC => .reservedC n
  | 0xD => .reservedD n
  | 0xE => .reservedE n
  | _ => .reservedF n

/-- The command a 20-bit word stands for: every word stands for exactly one (30_encoding.md R62, R65). -/
def decodeWord (w : CmdWord) : Instr := instrOf (opField w) (lenField w)

/-- Why bits are no command word. -/
inductive DecodeError where
  /-- a bit above bit 19 is set: the command port is 20 bits wide (30_encoding.md R60) -/
  | widerThanPort
  deriving DecidableEq, Repr

/-- What the decoder answers. -/
inductive Decoded where
  | instr (i : Instr)
  | rejected (why : DecodeError)
  deriving DecidableEq, Repr

/-- Decoding any number of bits: those of a word as the opcode table numbers them, bit 0 the least. -/
def decodeBits (bits : Nat) : Decoded :=
  if bits < 2 ^ 20 then .instr (decodeWord (BitVec.ofNat 20 bits)) else .rejected .widerThanPort

/-- The number that a list of bytes stands for, first byte least. -/
def bitsOfBytes : List Byte → Nat
  | [] => 0
  | x :: xs => x.toNat + 256 * bitsOfBytes xs

/-- Decoding any bytes. The block stores no command words (30_encoding.md R66, R70); this is the opcode table's
numbering of a word's bits, in bytes. DESIGN CHOICE (log 15). -/
def decodeBytes (bytes : List Byte) : Decoded := decodeBits (bitsOfBytes bytes)

/-- The command the decoder reads from the table word `w` of `nbits` bits, none where it rejects it. -/
def decodeTableWord (nbits w : Nat) : Option Instr :=
  match decodeBits (w % 2 ^ nbits) with
  | .instr i => some i
  | .rejected _ => none

/-- The operation code of a command (30_encoding.md R61). -/
def opOf : Instr → OpCode
  | .nop _ => 0x0#4
  | .push _ => 0x1#4
  | .pushblk _ => 0x2#4
  | .pop _ => 0x3#4
  | .popblk _ => 0x4#4
  | .free _ => 0x5#4
  | .occ _ => 0x6#4
  | .clear _ => 0x7#4
  | .crc32 _ => 0x8#4
  | .cobsenc _ => 0x9#4
  | .cobsdec _ => 0xA#4
  | .reservedB _ => 0xB#4
  | .reservedC _ => 0xC#4
  | .reservedD _ => 0xD#4
  | .reservedE _ => 0xE#4
  | .reservedF _ => 0xF#4

/-- The word of a command: `op` in bits 19:16, `len` in bits 15:0 (30_encoding.md R62). -/
def encode (i : Instr) : CmdWord := opOf i ++ i.len

/-- The least port on which the command is legal, `P` for a reserved one (30_encoding.md R61): where
`State.withFetchWord` presents it. DESIGN CHOICE (log 14). -/
def homePort (i : Instr) : Port := (i.ports.head?).getD .p

end Sys2Proof
end

