-- ==== Sys2Proof/Machine/State.lean ====
section
/-! DEFINITION. The state of one block instance, as plain data, the reasons a step can stop, and the state after reset. -/

namespace Sys2Proof.Machine

/-- The status codes (30_encoding.md R68). -/
inductive Status where
  | ok
  | fail
  | decerr
  | illegal
  deriving DecidableEq, Repr

/-- A response while `X_rsp_valid = 1`: the fields `X_status` and `X_count` (30_encoding.md R67). -/
structure Response where
  status : Status
  count : Len
  deriving DecidableEq, Repr

/-- `P_inflight`: a PUSHBLK of `n` elements that has pushed `PBUF[0..i-1]` (10_state.md R32). -/
structure PushInflight where
  n : Nat
  i : Nat
  deriving DecidableEq, Repr

/-- `C_inflight`: a POPBLK of `count` elements that has popped `i` of them (10_state.md R32). -/
structure PopInflight where
  count : Nat
  i : Nat
  deriving DecidableEq, Repr

/-- One address space (20_memory.md R40). `cells` lists the elements written since the space was last made
unspecified, indices strictly rising; an unlisted index holds no known value and reads as the free value of
`epoch` and the index, the same one each time (R45, R46). Log 5. -/
structure Memory (α : Type) where
  epoch : Nat
  cells : List (Nat × α)
  deriving DecidableEq, Repr

/-- What comes from outside the block in one step (00_scope.md R11; log 1). -/
inductive Input where
  /-- the agent of port `x` presents a command at an edge of the clock (30_encoding.md R71); `wdata` is
  what stands on `P_wdata`, which only port `P` has -/
  | issue (x : Port) (word : CmdWord) (wdata : Elem)
  /-- the schedule gives port `x` the next step: its block command takes one element step (20_memory.md R47) -/
  | advance (x : Port)
  /-- the producer agent writes `PBUF[i]` (20_memory.md R53) -/
  | writePbuf (i : Nat) (v : Elem)
  /-- the checksum requester writes `KBUF[i]` (20_memory.md R53) -/
  | writeKbuf (i : Nat) (v : Byte)
  /-- the codec requester writes `BIN[i]` (20_memory.md R53) -/
  | writeBin (i : Nat) (v : Byte)
  /-- `rst = 1` at an edge of the clock (70_reset_and_hazards.md R150) -/
  | reset
  deriving DecidableEq, Repr

/-- Reasons the machine stops with a fault. No command raises one (60_exceptions.md R130). -/
inductive Fault where
  /-- raised by an agent's write of an input buffer at an index outside it (20_memory.md R40 gives it no such
  element); safe: nothing can be proved of what follows. Log 11. -/
  | noSuchElement
  deriving DecidableEq, Repr

/-- Reasons the machine gives no meaning. -/
inductive Refusal where
  /-- no arm of `exec` raises it: every command has its meaning; safe -/
  | notModelled (mnemonic : String)
  /-- raised by a step other than reset before the first reset (70_reset_and_hazards.md R150,
  93_implementation_defined.md U9: refuse); safe. Log 12. -/
  | beforeFirstReset
  deriving DecidableEq, Repr

/-- The state of the block (10_state.md R20), the outputs of its ports (30_encoding.md R60), and the model's own
fields `port`, `inputs`, `resetSeen` and `draws`. -/
structure State where
  /-- the implementation's parameters; no step changes them -/
  params : Params
  /-- `MEM` (R21) -/
  mem : Memory Elem
  /-- `WR` (R22) -/
  wr : Nat
  /-- `RD` (R23) -/
  rd : Nat
  /-- `PBUF` (R29) -/
  pbuf : Memory Elem
  /-- `CBUF` (R29) -/
  cbuf : Memory Elem
  /-- `KBUF` (R30) -/
  kbuf : Memory Byte
  /-- `BIN` (R31) -/
  bin : Memory Byte
  /-- `BOUT` (R31) -/
  bout : Memory Byte
  /-- `P_inflight` (R32) -/
  pInflight : Option PushInflight
  /-- `C_inflight` (R32) -/
  cInflight : Option PopInflight
  /-- `P_rsp_valid`, `P_status`, `P_count`: none while `P_rsp_valid = 0` -/
  pRsp : Option Response
  /-- `C_rsp_valid`, `C_status`, `C_count` -/
  cRsp : Option Response
  /-- `K_rsp_valid`, `K_status`, `K_count` -/
  kRsp : Option Response
  /-- `B_rsp_valid`, `B_status`, `B_count` -/
  bRsp : Option Response
  /-- `C_rdata` -/
  cRdata : Elem
  /-- `K_crc` -/
  kCrc : Crc
  /-- `P_wdata` as sampled when port `P`'s command was issued (30_encoding.md R71) -/
  pWdata : Elem
  /-- the port whose command is being carried out -/
  port : Port
  /-- what comes from outside, next first -/
  inputs : List Input
  /-- `rst` has been 1 at an edge since power-up -/
  resetSeen : Bool
  /-- the counter of the outputs' free values -/
  draws : Nat
  deriving DecidableEq, Repr

/-- A space of which no element has a known value (10_state.md R35). -/
def Memory.unwritten {α : Type} : Memory α := { epoch := 0, cells := [] }

/-- The block with parameters `p` right after reset (10_state.md R35, 70_reset_and_hazards.md R151). -/
def State.resetWith (p : Params) : State where
  params := p
  mem := .unwritten
  wr := 0
  rd := 0
  pbuf := .unwritten
  cbuf := .unwritten
  kbuf := .unwritten
  bin := .unwritten
  bout := .unwritten
  pInflight := none
  cInflight := none
  pRsp := none
  cRsp := none
  kRsp := none
  bRsp := none
  cRdata := Config.freeRdata 0 % 2 ^ p.width
  kCrc := Config.freeCrc 0
  pWdata := 0
  port := .p
  inputs := []
  resetSeen := true
  draws := 1

/-- The machine right after reset. The parameters are DESIGN CHOICE (log 3). -/
def State.reset : State := State.resetWith Config.resetParams

end Sys2Proof.Machine
end

