-- ==== Sys2Proof/Machine/Flags.lean ====
section
/-! DEFINITION. The two flags and the two counts of the queue, all functions of `RD` and `WR` (10_state.md R25, R26). -/

namespace Sys2Proof.Machine

/-- `(x + 1) mod CAPACITY` (40_fifo.md R92). -/
def bump (cap x : Nat) : Nat := (x + 1) % cap

/-- `occ = (WR - RD) mod CAPACITY`, the mathematical remainder (10_state.md R25, 00_scope.md R9). -/
def State.occ (s : State) : Nat := (((s.wr : Int) - (s.rd : Int)) % (s.params.capacity : Int)).toNat

/-- `free = CAPACITY - 1 - occ` (10_state.md R25). -/
def State.free (s : State) : Nat := s.params.capacity - 1 - s.occ

/-- The output `full`: `(WR + 1) mod CAPACITY == RD` (10_state.md R26). -/
def State.full (s : State) : Bool := decide (bump s.params.capacity s.wr = s.rd)

/-- The output `empty`: `RD == WR` (10_state.md R26). -/
def State.empty (s : State) : Bool := decide (s.rd = s.wr)

end Sys2Proof.Machine
end

