-- ==== Sys2Proof/Machine/Ops.lean ====
section
/-! DEFINITION. The operations that the meanings share: reading and writing the six spaces, the element step in and out of
the queue, ending a command with a response, refusing a command, and the free values of the outputs. The block takes no
exceptions (60_exceptions.md R130, R137), so nothing is saved or restored here: the shared operation for a command that
cannot do what was asked is `respond` with its status. -/

namespace Sys2Proof.Machine

/-- The value listed at index `i`. -/
def lookupCell {α : Type} (i : Nat) : List (Nat × α) → Option α
  | [] => none
  | (j, w) :: rest => if i = j then some w else lookupCell i rest

/-- The list with `v` at index `i`, indices still rising. -/
def insertCell {α : Type} (i : Nat) (v : α) : List (Nat × α) → List (Nat × α)
  | [] => [(i, v)]
  | (j, w) :: rest =>
    if i < j then (i, v) :: (j, w) :: rest
    else if i = j then (i, v) :: rest
    else (j, w) :: insertCell i v rest

/-- The listed indices rise strictly. -/
def rising {α : Type} : List (Nat × α) → Bool
  | [] => true
  | (i, _) :: rest => rest.all (fun c => decide (i < c.1)) && rising rest

/-- The value of element `i`, none where nothing has been written since the space was made unspecified. -/
def Memory.lookup {α : Type} (m : Memory α) (i : Nat) : Option α := lookupCell i m.cells

/-- `S[i] <- v` (00_scope.md R10, `MemWrite` with `n = 1`). -/
def Memory.write {α : Type} (m : Memory α) (i : Nat) (v : α) : Memory α :=
  { m with cells := insertCell i v m.cells }

/-- `S[i] <- xs[0]`, `S[i+1] <- xs[1]`, ... -/
def Memory.writeSpan {α : Type} (m : Memory α) (i : Nat) : List α → Memory α
  | [] => m
  | v :: vs => (m.write i v).writeSpan (i + 1) vs

/-- Every element takes an unspecified value (10_state.md R35, 42_cobs.md R121): new free values. -/
def Memory.unspecify {α : Type} (m : Memory α) : Memory α := { epoch := m.epoch + 1, cells := [] }

/-- The canonical form: indices strictly rising. An unlisted index holds no known value, so no entry can equal it. -/
def Memory.wf {α : Type} (m : Memory α) : Bool := rising m.cells

/-- Only indices below `depth` are listed. -/
def Memory.within {α : Type} (m : Memory α) (depth : Nat) : Bool := m.cells.all (fun c => decide (c.1 < depth))

/-- `MEM[i]`, a free value of `WIDTH` bits where nothing is written (20_memory.md R46). -/
def State.readMem (s : State) (i : Nat) : Elem :=
  (s.mem.lookup i).getD (Config.freeElem .mem s.mem.epoch i % 2 ^ s.params.width)

/-- `PBUF[i]`. -/
def State.readPbuf (s : State) (i : Nat) : Elem :=
  (s.pbuf.lookup i).getD (Config.freeElem .pbuf s.pbuf.epoch i % 2 ^ s.params.width)

/-- `CBUF[i]`. -/
def State.readCbuf (s : State) (i : Nat) : Elem :=
  (s.cbuf.lookup i).getD (Config.freeElem .cbuf s.cbuf.epoch i % 2 ^ s.params.width)

/-- `KBUF[i]`. -/
def State.readKbuf (s : State) (i : Nat) : Byte :=
  (s.kbuf.lookup i).getD (Config.freeByte .kbuf s.kbuf.epoch i)

/-- `BIN[i]`. -/
def State.readBin (s : State) (i : Nat) : Byte :=
  (s.bin.lookup i).getD (Config.freeByte .bin s.bin.epoch i)

/-- `BOUT[i]`. -/
def State.readBout (s : State) (i : Nat) : Byte :=
  (s.bout.lookup i).getD (Config.freeByte .bout s.bout.epoch i)

/-! The updates of one field each. -/

/-- What comes from outside next. -/
def setInputs (rest : List Input) (s : State) : State := { s with inputs := rest }

/-- `P_inflight <- r`. -/
def setPInflight (r : Option PushInflight) (s : State) : State := { s with pInflight := r }

/-- `C_inflight <- r`. -/
def setCInflight (r : Option PopInflight) (s : State) : State := { s with cInflight := r }

/-- The space `PBUF` becomes `m`. -/
def setPbuf (m : Memory Elem) (s : State) : State := { s with pbuf := m }

/-- The space `CBUF` becomes `m`. -/
def setCbuf (m : Memory Elem) (s : State) : State := { s with cbuf := m }

/-- The space `KBUF` becomes `m`. -/
def setKbuf (m : Memory Byte) (s : State) : State := { s with kbuf := m }

/-- The space `BIN` becomes `m`. -/
def setBin (m : Memory Byte) (s : State) : State := { s with bin := m }

/-- The space `BOUT` becomes `m`. -/
def setBout (m : Memory Byte) (s : State) : State := { s with bout := m }

/-- `C_rdata <- v`. -/
def setRdata (v : Elem) (s : State) : State := { s with cRdata := v }

/-- `K_crc <- c`. -/
def setCrc (c : Crc) (s : State) : State := { s with kCrc := c }

/-- The response that port `x` shows, none while `X_rsp_valid = 0`. -/
def State.rsp (s : State) : Port → Option Response
  | .p => s.pRsp
  | .c => s.cRsp
  | .k => s.kRsp
  | .b => s.bRsp

/-- `C_rdata` takes a free value of `WIDTH` bits (93_implementation_defined.md U7). -/
def freshRdata (s : State) : State :=
  { s with cRdata := Config.freeRdata s.draws % 2 ^ s.params.width, draws := s.draws + 1 }

/-- `K_crc` takes a free value (93_implementation_defined.md U7). -/
def freshCrc (s : State) : State :=
  { s with kCrc := Config.freeCrc s.draws, draws := s.draws + 1 }

/-- `respond(status, count)` on port `x` (00_scope.md R10, 30_encoding.md R67). The fields `C_rdata` and `K_crc` that a
response on their port carries are free here; POP and CRC32 give them their values. -/
def respond (x : Port) (status : Status) (count : Nat) (s : State) : State :=
  match x with
  | .p => { s with pRsp := some ⟨status, BitVec.ofNat 16 count⟩ }
  | .c => { freshRdata s with cRsp := some ⟨status, BitVec.ofNat 16 count⟩ }
  | .k => { freshCrc s with kRsp := some ⟨status, BitVec.ofNat 16 count⟩ }
  | .b => { s with bRsp := some ⟨status, BitVec.ofNat 16 count⟩ }

/-- The success arm of PUSH: `MEM[WR] <- v`, then `WR` advances (40_fifo.md R81; order: 20_memory.md R48). -/
def pushElem (v : Elem) (s : State) : State :=
  { s with mem := s.mem.write s.wr v, wr := bump s.params.capacity s.wr }

/-- The success arm of POP but for its result: `RD` advances (40_fifo.md R83). -/
def popElem (s : State) : State := { s with rd := bump s.params.capacity s.rd }

/-- `RD <- WR`: every element is discarded (40_fifo.md R87). -/
def discardAll (s : State) : State := { s with rd := s.wr }

/-- A new step begins: the responses of the step before have been taken (30_encoding.md R60: valid for one clock
cycle; 10_state.md R33). Log 8. -/
def newStep (s : State) : State :=
  freshCrc (freshRdata { s with pRsp := none, cRsp := none, kRsp := none, bRsp := none })

end Sys2Proof.Machine
end

