-- ==== Sys2Proof/Machine/Operands.lean ====
section
/-! DEFINITION. The operands of a command (30_encoding.md R63) and the checks made when it is issued (30_encoding.md R69). -/

namespace Sys2Proof.Machine

/-- `len` as the unsigned number it stands for (30_encoding.md R63). -/
def count (n : Len) : Nat := n.toNat

/-- The operand `v` of PUSH (40_fifo.md R81). -/
def pushOperand (s : State) : Elem := s.pWdata

/-- `KBUF[0..n-1]` (41_crc32.md R100). -/
def kbufSpan (s : State) (n : Nat) : List Byte := (List.range n).map s.readKbuf

/-- `BIN[0..n-1]` (42_cobs.md R111, R117). -/
def binSpan (s : State) (n : Nat) : List Byte := (List.range n).map s.readBin

/-- Lines 2 to 4 of 30_encoding.md R69: a command on a port not in `ports`, or with a length over its limit, is
refused with ILLEGAL; otherwise its own rule is carried out. -/
def carryOut (ports : List Port) (lenOk : Bool) (rule : State → State) (s : State) : State :=
  if ports.contains s.port && lenOk then rule s else respond s.port .illegal 0 s

/-- Line 1 of 30_encoding.md R69: a reserved operation code is refused with ILLEGAL on every port. -/
def refuseReserved (s : State) : State := respond s.port .illegal 0 s

end Sys2Proof.Machine
end

