-- ==== Sys2Proof/Machine/Cobs.lean ====
section
/-! DEFINITION. The framing commands (42_cobs.md). -/

namespace Sys2Proof.Machine

/-- The working values of the encoder (42_cobs.md R112): `out[0..o-1]`, the index `cp` of the open run's counter
byte, and the counter `code`. `o` is the length of `out`. -/
structure EncodeWork where
  out : List Byte
  cp : Nat
  code : Nat
  deriving DecidableEq, Repr

/-- `out[cp] <- code`. -/
def EncodeWork.closeRun (e : EncodeWork) : List Byte := e.out.set e.cp (BitVec.ofNat 8 e.code)

/-- `cp <- o ; o <- o + 1 ; code <- 1`: the counter byte is a placeholder until the run is closed. -/
def openRun (out : List Byte) : EncodeWork := { out := out ++ [0#8], cp := out.length, code := 1 }

/-- The body of the encoder's loop (42_cobs.md R112). -/
def encodeByte (e : EncodeWork) (b : Byte) : EncodeWork :=
  if b = 0#8 then openRun e.closeRun
  else
    let e' : EncodeWork := { e with out := e.out ++ [b], code := e.code + 1 }
    if e'.code = 255 then openRun e'.closeRun else e'

/-- The function `cobs_encode` (42_cobs.md R112; last line: R113). -/
def cobsEncode (record : List Byte) : List Byte := (record.foldl encodeByte (openRun [])).closeRun

/-- The loop of the decoder (42_cobs.md R118) on the input still to be read; none is an error. Every turn takes a
counter byte, so as many turns as there are bytes always suffice. -/
def decodeRuns : Nat → List Byte → Option (List Byte)
  | _, [] => some []
  | 0, _ :: _ => none
  | turns + 1, code :: rest =>
    if code = 0x00#8 then none
    else if code.toNat - 1 > rest.length then none
    else
      let data := rest.take (code.toNat - 1)
      let more := rest.drop (code.toNat - 1)
      let zero : List Byte := if code ≠ 0xFF#8 ∧ more ≠ [] then [0x00#8] else []
      (decodeRuns turns more).map (fun out => data ++ zero ++ out)

/-- The function `cobs_decode` (42_cobs.md R118). -/
def cobsDecode (span : List Byte) : Option (List Byte) := decodeRuns span.length span

/-- COBSENC past the checks (42_cobs.md R111). -/
def cobsencRule (n : Nat) (s : State) : State :=
  let out := cobsEncode (binSpan s n)
  respond s.port .ok out.length (setBout (s.bout.writeSpan 0 out) s)

/-- COBSENC (42_cobs.md R111; limit: 30_encoding.md R69). -/
def execCobsenc (len : Len) (s : State) : Host.Outcome State Fault Refusal :=
  .next (carryOut [.b] (decide (count len ≤ s.params.maxRecord)) (cobsencRule (count len)) s)

/-- COBSDEC past the checks (42_cobs.md R117); after DECERR the whole of `BOUT` is unspecified (R121). -/
def cobsdecRule (n : Nat) (s : State) : State :=
  match cobsDecode (binSpan s n) with
  | none => respond s.port .decerr 0 (setBout s.bout.unspecify s)
  | some out => respond s.port .ok out.length (setBout (s.bout.writeSpan 0 out) s)

/-- COBSDEC (42_cobs.md R117; limit: 30_encoding.md R69). -/
def execCobsdec (len : Len) (s : State) : Host.Outcome State Fault Refusal :=
  .next (carryOut [.b] (decide (count len ≤ s.params.maxEncoded)) (cobsdecRule (count len)) s)

end Sys2Proof.Machine
end

