-- ==== Sys2Proof/Machine/Crc.lean ====
section
/-! DEFINITION. The checksum command (41_crc32.md). -/

namespace Sys2Proof.Machine

/-- One pass of the loop of 41_crc32.md R101: one bit of the byte. -/
def crcBit (crc : Crc) : Crc :=
  if crc.getLsbD 0 then (crc >>> 1) ^^^ 0xEDB88320#32 else crc >>> 1

/-- `k` passes. -/
def crcBits : Nat → Crc → Crc
  | 0, crc => crc
  | k + 1, crc => crcBits k (crcBit crc)

/-- One byte: it enters the low 8 bits, then eight passes (41_crc32.md R101). -/
def crcByte (crc : Crc) (b : Byte) : Crc := crcBits 8 (crc ^^^ b.zeroExtend 32)

/-- The function `crc32` of 41_crc32.md R101. -/
def crc32 (span : List Byte) : Crc := ~~~(span.foldl crcByte 0xFFFFFFFF#32)

/-- CRC32 past the checks (41_crc32.md R100). -/
def crc32Rule (n : Nat) (s : State) : State :=
  setCrc (crc32 (kbufSpan s n)) (respond s.port .ok 0 s)

/-- CRC32 (41_crc32.md R100; limit: 30_encoding.md R69). -/
def execCrc32 (len : Len) (s : State) : Host.Outcome State Fault Refusal :=
  .next (carryOut [.k] (decide (count len ≤ s.params.maxSpan)) (crc32Rule (count len)) s)

end Sys2Proof.Machine
end

