-- ==== Sys2Proof/Machine/Queue.lean ====
section
/-! DEFINITION. The queue commands (40_fifo.md) and the element steps of the two block commands. -/

namespace Sys2Proof.Machine

/-- NOP (40_fifo.md R80). -/
def execNop (_len : Len) (s : State) : Host.Outcome State Fault Refusal :=
  .next (carryOut [.p, .c, .k, .b] true (respond s.port .ok 0) s)

/-- PUSH past the checks (40_fifo.md R81). -/
def pushRule (s : State) : State :=
  if s.full then respond s.port .fail 0 s
  else respond s.port .ok 0 (pushElem (pushOperand s) s)

/-- PUSH (40_fifo.md R81). -/
def execPush (_len : Len) (s : State) : Host.Outcome State Fault Refusal :=
  .next (carryOut [.p] true pushRule s)

/-- The check step of PUSHBLK past the checks of R69 (40_fifo.md R82). -/
def pushblkRule (n : Nat) (s : State) : State :=
  if s.free < n then respond s.port .fail 0 s
  else if n = 0 then respond s.port .ok 0 s
  else setPInflight (some ⟨n, 0⟩) s

/-- PUSHBLK: its check step (40_fifo.md R82). -/
def execPushblk (len : Len) (s : State) : Host.Outcome State Fault Refusal :=
  .next (carryOut [.p] true (pushblkRule (count len)) s)

/-- One element step of the PUSHBLK in flight (40_fifo.md R82); nothing if none is. -/
def pushblkElement (s : State) : State :=
  match s.pInflight with
  | none => s
  | some r =>
    let t := pushElem (s.readPbuf r.i) s
    if r.i + 1 = r.n then respond .p .ok 0 (setPInflight none t)
    else setPInflight (some ⟨r.n, r.i + 1⟩) t

/-- POP past the checks (40_fifo.md R83); on FAIL `C_rdata` stays the free value that `respond` draws. -/
def popRule (s : State) : State :=
  if s.empty then respond s.port .fail 0 s
  else setRdata (s.readMem s.rd) (respond s.port .ok 0 (popElem s))

/-- POP (40_fifo.md R83). -/
def execPop (_len : Len) (s : State) : Host.Outcome State Fault Refusal :=
  .next (carryOut [.c] true popRule s)

/-- The count step of POPBLK past the checks of R69 (40_fifo.md R84). -/
def popblkRule (maxLen : Nat) (s : State) : State :=
  if min s.occ maxLen = 0 then respond s.port .ok 0 s
  else setCInflight (some ⟨min s.occ maxLen, 0⟩) s

/-- POPBLK: its count step (40_fifo.md R84). -/
def execPopblk (len : Len) (s : State) : Host.Outcome State Fault Refusal :=
  .next (carryOut [.c] true (popblkRule (count len)) s)

/-- One element step of the POPBLK in flight (40_fifo.md R84); nothing if none is. -/
def popblkElement (s : State) : State :=
  match s.cInflight with
  | none => s
  | some r =>
    let t := popElem (setCbuf (s.cbuf.write r.i (s.readMem s.rd)) s)
    if r.i + 1 = r.count then respond .c .ok r.count (setCInflight none t)
    else setCInflight (some ⟨r.count, r.i + 1⟩) t

/-- FREE (40_fifo.md R85). -/
def execFree (_len : Len) (s : State) : Host.Outcome State Fault Refusal :=
  .next (carryOut [.p, .c] true (respond s.port .ok s.free) s)

/-- OCC (40_fifo.md R86). -/
def execOcc (_len : Len) (s : State) : Host.Outcome State Fault Refusal :=
  .next (carryOut [.p, .c] true (respond s.port .ok s.occ) s)

/-- CLEAR past the checks: `RD <- WR` (40_fifo.md R87). -/
def clearRule (s : State) : State := respond s.port .ok 0 (discardAll s)

/-- CLEAR (40_fifo.md R87). -/
def execClear (_len : Len) (s : State) : Host.Outcome State Fault Refusal :=
  .next (carryOut [.c] true clearRule s)

end Sys2Proof.Machine
end

