-- ==== Sys2Proof/Machine/Reserved.lean ====
section
/-! DEFINITION. The five reserved operation codes: each is refused with ILLEGAL and changes no state (30_encoding.md R65). -/

namespace Sys2Proof.Machine

/-- Operation code 0xB (30_encoding.md R65). -/
def execReservedB (_len : Len) (s : State) : Host.Outcome State Fault Refusal := .next (refuseReserved s)

/-- Operation code 0xC (30_encoding.md R65). -/
def execReservedC (_len : Len) (s : State) : Host.Outcome State Fault Refusal := .next (refuseReserved s)

/-- Operation code 0xD (30_encoding.md R65). -/
def execReservedD (_len : Len) (s : State) : Host.Outcome State Fault Refusal := .next (refuseReserved s)

/-- Operation code 0xE (30_encoding.md R65). -/
def execReservedE (_len : Len) (s : State) : Host.Outcome State Fault Refusal := .next (refuseReserved s)

/-- Operation code 0xF (30_encoding.md R65). -/
def execReservedF (_len : Len) (s : State) : Host.Outcome State Fault Refusal := .next (refuseReserved s)

end Sys2Proof.Machine
end

