-- ==== Sys2Proof/Machine/Dispatch.lean ====
section
/-! DEFINITION. One arm per command (30_encoding.md R61). -/

namespace Sys2Proof.Machine

/-- Carry out the command `i` on the port and with the operands that the state holds. -/
def exec (i : Instr) (s : State) : Host.Outcome State Fault Refusal :=
  match i with
  | .nop len => Sys2Proof.Machine.execNop len s
  | .push len => Sys2Proof.Machine.execPush len s
  | .pushblk len => Sys2Proof.Machine.execPushblk len s
  | .pop len => Sys2Proof.Machine.execPop len s
  | .popblk len => Sys2Proof.Machine.execPopblk len s
  | .free len => Sys2Proof.Machine.execFree len s
  | .occ len => Sys2Proof.Machine.execOcc len s
  | .clear len => Sys2Proof.Machine.execClear len s
  | .crc32 len => Sys2Proof.Machine.execCrc32 len s
  | .cobsenc len => Sys2Proof.Machine.execCobsenc len s
  | .cobsdec len => Sys2Proof.Machine.execCobsdec len s
  | .reservedB len => Sys2Proof.Machine.execReservedB len s
  | .reservedC len => Sys2Proof.Machine.execReservedC len s
  | .reservedD len => Sys2Proof.Machine.execReservedD len s
  | .reservedE len => Sys2Proof.Machine.execReservedE len s
  | .reservedF len => Sys2Proof.Machine.execReservedF len s

end Sys2Proof.Machine
end

