-- ==== Sys2Proof/Machine/Ports.lean ====
section
/-! DEFINITION. What surrounds the commands: the ports' outputs, taking a command at a port, the turn of a block command,
the agents' acts on the buffers, reset. -/

namespace Sys2Proof.Machine

/-- The code of a status (30_encoding.md R68). -/
def statusCode : Status → BitVec 2
  | .ok => 0b00#2
  | .fail => 0b01#2
  | .decerr => 0b10#2
  | .illegal => 0b11#2

/-- `X_busy` between two steps (30_encoding.md R71): only a block command is in flight then (10_state.md R32). -/
def State.busy (s : State) : Port → Bool
  | .p => s.pInflight.isSome
  | .c => s.cInflight.isSome
  | .k => false
  | .b => false

/-- `X_rsp_valid` (30_encoding.md R60). -/
def State.rspValid (s : State) (x : Port) : Bool := (s.rsp x).isSome

/-- `X_status` (30_encoding.md R60, R68); a free value while the response is not valid (log 8). -/
def State.statusOut (s : State) (x : Port) : BitVec 2 :=
  match s.rsp x with
  | some r => statusCode r.status
  | none => Config.freeStatus x.index s.draws

/-- `X_count` (30_encoding.md R60, R67); a free value while the response is not valid (log 8). -/
def State.countOut (s : State) (x : Port) : Len :=
  match s.rsp x with
  | some r => r.count
  | none => Config.freeCount x.index s.draws

/-- What the consumer agent reads in `CBUF[i]` (20_memory.md R53): unspecified while port `C` is busy (log 10). That an index
outside `CBUF` reads as a free value of the space, and is no fault, is a DESIGN CHOICE (log 19). -/
def State.agentReadCbuf (s : State) (i : Nat) : Elem :=
  if s.busy .c then Config.freeAgentView s.draws i % 2 ^ s.params.width else s.readCbuf i

/-- What the codec requester reads in `BOUT[i]` (20_memory.md R53). That an index outside `BOUT` reads as a free value of the
space, and is no fault, is a DESIGN CHOICE (log 19). -/
def State.agentReadBout (s : State) (i : Nat) : Byte := s.readBout i

/-- Port `x` takes the command presented to it: `rst` has been seen (70_reset_and_hazards.md R150) and the port is
idle (30_encoding.md R71). -/
def accepts (x : Port) (s : State) : Bool := s.resetSeen && !s.busy x

/-- The state in which the command taken at port `x` is carried out: `P_wdata` is sampled on its `WIDTH` lines
(30_encoding.md R71), `rest` stays to come. -/
def issued (x : Port) (wdata : Elem) (rest : List Input) (s : State) : State :=
  let t := newStep { setInputs rest s with port := x }
  match x with
  | .p => { t with pWdata := wdata % 2 ^ s.params.width }
  | .c | .k | .b => t

/-- Before the first reset nothing but reset has a meaning (70_reset_and_hazards.md R150). Log 12. -/
def afterFirstReset (s : State) (turn : Host.Outcome State Fault Refusal) : Host.Outcome State Fault Refusal :=
  if s.resetSeen then turn else .refused .beforeFirstReset

/-- A command presented to a busy port is ignored (30_encoding.md R71). -/
def ignored (rest : List Input) (s : State) : Host.Outcome State Fault Refusal :=
  afterFirstReset s (.next (newStep (setInputs rest s)))

/-- The block command of port `x` takes one element step; nothing if none is in flight (20_memory.md R48; log 18). -/
def elementStep (x : Port) (s : State) : State :=
  match x with
  | .p => pushblkElement s
  | .c => popblkElement s
  | .k | .b => s

/-- The schedule gives port `x` the step. -/
def advanceTurn (x : Port) (rest : List Input) (s : State) : Host.Outcome State Fault Refusal :=
  afterFirstReset s (.next (elementStep x (newStep (setInputs rest s))))

/-- Nothing comes from outside: a block command in flight takes its next step, port `P` before port `C`
(93_implementation_defined.md U14: every issued command responds); else nothing happens. DESIGN CHOICE (log 2). -/
def idleTurn (s : State) : Host.Outcome State Fault Refusal :=
  afterFirstReset s (.next
    (if s.busy .p then elementStep .p (newStep s)
     else if s.busy .c then elementStep .c (newStep s)
     else newStep s))

/-- The producer agent writes `PBUF[i]` (20_memory.md R40, R53). While a PUSHBLK is in flight the values it reads are
unspecified from then on (R53, 93_implementation_defined.md U6). Logs 10, 11. -/
def writePbufTurn (i : Nat) (v : Elem) (rest : List Input) (s : State) : Host.Outcome State Fault Refusal :=
  afterFirstReset s
    (if s.params.capacity - 1 ≤ i then .fault .noSuchElement
     else
      let t := newStep (setInputs rest s)
      if s.busy .p then .next (setPbuf s.pbuf.unspecify t)
      else .next (setPbuf (s.pbuf.write i (v % 2 ^ s.params.width)) t))

/-- The checksum requester writes `KBUF[i]` (20_memory.md R40, R53). Log 11. -/
def writeKbufTurn (i : Nat) (v : Byte) (rest : List Input) (s : State) : Host.Outcome State Fault Refusal :=
  afterFirstReset s
    (if s.params.maxSpan ≤ i then .fault .noSuchElement
     else
      let t := newStep (setInputs rest s)
      .next (setKbuf (s.kbuf.write i v) t))

/-- The codec requester writes `BIN[i]` (20_memory.md R40, R53). Log 11. -/
def writeBinTurn (i : Nat) (v : Byte) (rest : List Input) (s : State) : Host.Outcome State Fault Refusal :=
  afterFirstReset s
    (if s.params.maxEncoded ≤ i then .fault .noSuchElement
     else
      let t := newStep (setInputs rest s)
      .next (setBin (s.bin.write i v) t))

/-- The reset step (70_reset_and_hazards.md R150 to R152): indices 0, nothing in flight, every port idle and without a
response, every element of every space unspecified (10_state.md R35). Log 6. -/
def resetStep (s : State) : State :=
  { newStep s with
    wr := 0
    rd := 0
    mem := s.mem.unspecify
    pbuf := s.pbuf.unspecify
    cbuf := s.cbuf.unspecify
    kbuf := s.kbuf.unspecify
    bin := s.bin.unspecify
    bout := s.bout.unspecify
    pInflight := none
    cInflight := none
    resetSeen := true }

/-- `rst = 1` at an edge: commands presented then are not issued (70_reset_and_hazards.md R150). -/
def resetTurn (rest : List Input) (s : State) : Host.Outcome State Fault Refusal :=
  .next (resetStep (setInputs rest s))

/-- The state in which port `x` is idle, a reset has been seen, and the agent of port `x` presents `word` next:
what `State.withFetchWord` needs. Log 14. -/
def presenting (x : Port) (word : CmdWord) (s : State) : State :=
  let t := { setInputs (.issue x word 0 :: s.inputs) s with resetSeen := true }
  match x with
  | .p => setPInflight none t
  | .c => setCInflight none t
  | .k | .b => t

end Sys2Proof.Machine
end

