-- ==== Sys2Proof/Machine/Step.lean ====
section
/-! DEFINITION. One step of the machine: one atomic step of 20_memory.md R48, one act of an agent, or an idle turn. -/

namespace Sys2Proof.Machine

/-- One step. What comes from outside stands in `inputs`; every order of it is some state's. -/
def step (s : State) : Host.Outcome State Fault Refusal :=
  match s.inputs with
  | [] => idleTurn s
  | .issue x word wdata :: rest =>
    if accepts x s then exec (decodeWord word) (issued x wdata rest s) else ignored rest s
  | .advance x :: rest => advanceTurn x rest s
  | .writePbuf i v :: rest => writePbufTurn i v rest s
  | .writeKbuf i v :: rest => writeKbufTurn i v rest s
  | .writeBin i v :: rest => writeBinTurn i v rest s
  | .reset :: rest => resetTurn rest s

/-- The table word `w` of `nbits` bits presented as the next command, on the least port it is legal on (log 14). -/
def State.withFetchWord (s : State) (nbits w : Nat) : State :=
  let word : CmdWord := BitVec.ofNat 20 (w % 2 ^ nbits)
  presenting (homePort (decodeWord word)) word s

end Sys2Proof.Machine
end

