-- ==== Sys2Proof/Safety.lean ====
section
/-! DEFINITION. The terms the statements use: the queue's contents, the invariant of the block, what a command leaves
unchanged, the events of a run, and the shape of an encoded record. -/

namespace Sys2Proof.Machine

/-- The queue's contents, oldest element first (10_state.md R28). -/
def State.contents (s : State) : List Elem :=
  (List.range s.occ).map (fun k => s.readMem ((s.rd + k) % s.params.capacity))

/-- Every listed element has `width` bits. -/
def Memory.fits (m : Memory Elem) (width : Nat) : Bool := m.cells.all (fun c => decide (c.2 < 2 ^ width))

/-- The invariant of the block. -/
structure State.Inv (s : State) : Prop where
  /-- 00_scope.md R7 -/
  params_ok : s.params.ok = true
  /-- 10_state.md R24 -/
  rd_lt : s.rd < s.params.capacity
  /-- 10_state.md R24 -/
  wr_lt : s.wr < s.params.capacity
  /-- canonical form, depth and element width of the spaces (20_memory.md R40) -/
  mem_ok : s.mem.wf = true ∧ s.mem.within s.params.capacity = true ∧ s.mem.fits s.params.width = true
  pbuf_ok : s.pbuf.wf = true ∧ s.pbuf.within (s.params.capacity - 1) = true ∧ s.pbuf.fits s.params.width = true
  cbuf_ok : s.cbuf.wf = true ∧ s.cbuf.within (s.params.capacity - 1) = true ∧ s.cbuf.fits s.params.width = true
  kbuf_ok : s.kbuf.wf = true ∧ s.kbuf.within s.params.maxSpan = true
  bin_ok : s.bin.wf = true ∧ s.bin.within s.params.maxEncoded = true
  bout_ok : s.bout.wf = true ∧ s.bout.within s.params.maxEncoded = true
  pWdata_lt : s.pWdata < 2 ^ s.params.width
  cRdata_lt : s.cRdata < 2 ^ s.params.width
  /-- 10_state.md R32 and 40_fifo.md R90 (a) -/
  push_inflight : ∀ r, s.pInflight = some r →
    r.i < r.n ∧ r.n ≤ s.params.capacity - 1 ∧ r.n - r.i ≤ s.free
  /-- 10_state.md R32 and 40_fifo.md R90 (b) -/
  pop_inflight : ∀ r, s.cInflight = some r →
    r.i < r.count ∧ r.count ≤ s.params.capacity - 1 ∧ r.count - r.i ≤ s.occ
  /-- 20_memory.md R46: every slot of the window has been written -/
  window_written : ∀ k, k < s.occ → (s.mem.lookup ((s.rd + k) % s.params.capacity)).isSome = true
  /-- 30_encoding.md R67: no count with a status other than OK -/
  failed_count : ∀ x r, s.rsp x = some r → r.status ≠ .ok → r.count = 0

/-- No element of a space. -/
def nowhere : Nat → Prop := fun _ => False

/-- What a command on port `x` leaves unchanged, whatever it does to `WR`, `RD` and the in-flight records (a statement
says that itself): every element outside the stored ones reads as before, by space; the other ports' outputs and the
inputs are as before. `PBUF`, `KBUF` and `BIN` are stored to by no command. -/
structure Frame (x : Port) (memAt cbufAt boutAt : Nat → Prop) (s t : State) : Prop where
  params : t.params = s.params
  mem : ∀ a, ¬ memAt a → t.readMem a = s.readMem a
  pbuf : ∀ a, t.readPbuf a = s.readPbuf a
  cbuf : ∀ a, ¬ cbufAt a → t.readCbuf a = s.readCbuf a
  kbuf : ∀ a, t.readKbuf a = s.readKbuf a
  bin : ∀ a, t.readBin a = s.readBin a
  bout : ∀ a, ¬ boutAt a → t.readBout a = s.readBout a
  others : ∀ y, y ≠ x → t.rsp y = s.rsp y
  rdata : x ≠ .c → t.cRdata = s.cRdata
  crc : x ≠ .k → t.kCrc = s.kCrc
  pWdata : t.pWdata = s.pWdata
  port : t.port = s.port
  inputs : t.inputs = s.inputs
  resetSeen : t.resetSeen = s.resetSeen

/-- `WR`, `RD` and both in-flight records are unchanged. -/
def SameIndices (s t : State) : Prop :=
  t.wr = s.wr ∧ t.rd = s.rd ∧ t.pInflight = s.pInflight ∧ t.cInflight = s.cInflight

/-- The state that lasts from one command to the next (10_state.md R20, R33): everything but the ports' outputs, what
is still to come and the model's own counters. -/
def State.lasting (s : State) : State :=
  { s with
    pRsp := none, cRsp := none, kRsp := none, bRsp := none, cRdata := 0, kCrc := 0, pWdata := 0,
    port := .p, inputs := [], draws := 0 }

/-- What comes from outside concerns the queue: ports `P` and `C` and the buffer `PBUF`. -/
def Input.onQueue : Input → Bool
  | .issue .p _ _ | .issue .c _ _ | .advance .p | .advance .c | .writePbuf _ _ => true
  | .issue .k _ _ | .issue .b _ _ | .advance .k | .advance .b | .writeKbuf _ _ | .writeBin _ _ | .reset => false

/-- What comes from outside concerns the checksum unit or the codec: ports `K` and `B`, the buffers `KBUF` and `BIN`. -/
def Input.offQueue : Input → Bool
  | .issue .k _ _ | .issue .b _ _ | .advance .k | .advance .b | .writeKbuf _ _ | .writeBin _ _ => true
  | .issue .p _ _ | .issue .c _ _ | .advance .p | .advance .c | .writePbuf _ _ | .reset => false

/-- What comes next is an act or a step of port `x`. -/
def Input.ofPort (x : Port) : Input → Bool
  | .issue y _ _ => decide (y = x)
  | .advance y => decide (y = x)
  | .writePbuf _ _ => decide (x = .p)
  | .writeKbuf _ _ => decide (x = .k)
  | .writeBin _ _ => decide (x = .b)
  | .reset => false

/-- What happens to the queue's contents in one step. -/
inductive QueueEvent where
  /-- a successful PUSH step stored the element -/
  | stored (v : Elem)
  /-- a successful POP step returned the element -/
  | returned (v : Elem)
  /-- CLEAR or reset -/
  | emptied
  deriving DecidableEq, Repr

/-- The port whose block command takes an element step next, if the next step is one. -/
def State.elementPort (s : State) : Option Port :=
  match s.inputs with
  | [] => if s.busy .p then some .p else if s.busy .c then some .c else none
  | .advance x :: _ => if s.busy x then some x else none
  | .issue _ _ _ :: _ | .writePbuf _ _ :: _ | .writeKbuf _ _ :: _ | .writeBin _ _ :: _ | .reset :: _ => none

/-- The next step is an act or a step of port `x`: what comes next is its own, or nothing comes and its block command
takes an element step (which one does, if two are in flight, is log 2). Reset is no port's. -/
def State.stepIsOf (s : State) (x : Port) : Bool :=
  match s.inputs with
  | [] => decide (s.elementPort = some x)
  | now :: _ => now.ofPort x

/-- The event of the step from `s` to `t`, read off the commands, the operands and the results: the element of a PUSH
that answers OK is the one presented with it, that of a POP that answers OK is `C_rdata`; an element step stores
`PBUF[i]` or returns what it leaves in `CBUF[i]`. -/
def eventOf (s t : State) : Option QueueEvent :=
  match s.inputs with
  | .reset :: _ => some .emptied
  | .issue x w v :: _ =>
    if accepts x s then
      match x, decodeWord w with
      | .p, .push _ => if t.pRsp = some ⟨.ok, 0⟩ then some (.stored (v % 2 ^ s.params.width)) else none
      | .c, .pop _ => if t.cRsp = some ⟨.ok, 0⟩ then some (.returned t.cRdata) else none
      | .c, .clear _ => some .emptied
      | _, _ => none
    else none
  | _ =>
    match s.elementPort with
    | some .p => s.pInflight.map (fun r => .stored (s.readPbuf r.i))
    | some .c => s.cInflight.map (fun r => .returned (t.readCbuf r.i))
    | _ => none

/-- The events of `k` steps. -/
def eventsOf : Nat → State → List QueueEvent
  | 0, _ => []
  | k + 1, s =>
    match step s with
    | .next t => (eventOf s t).toList ++ eventsOf k t
    | .fault _ => []
    | .refused _ => []

/-- What a queue that keeps its elements in order makes of the events; none if an element is returned that is not
the oldest. -/
def replay : List Elem → List QueueEvent → Option (List Elem)
  | q, [] => some q
  | q, .stored v :: es => replay (q ++ [v]) es
  | [], .returned _ :: _ => none
  | v :: q, .returned u :: es => if u = v then replay q es else none
  | _, .emptied :: es => replay [] es

/-- The elements stored, in order. -/
def storedBy (es : List QueueEvent) : List Elem :=
  es.filterMap (fun e => match e with | .stored v => some v | .returned _ => none | .emptied => none)

/-- The elements returned, in order. -/
def returnedBy (es : List QueueEvent) : List Elem :=
  es.filterMap (fun e => match e with | .stored _ => none | .returned v => some v | .emptied => none)

/-- The number of force-closed runs of a record, by the running counter `code` (42_cobs.md R114). -/
def forceClosesFrom : Nat → List Byte → Nat
  | _, [] => 0
  | code, b :: bs =>
    if b = 0#8 then forceClosesFrom 1 bs
    else if code + 1 = 255 then forceClosesFrom 1 bs + 1
    else forceClosesFrom (code + 1) bs

/-- `F` of 42_cobs.md R115. -/
def forceCloses (record : List Byte) : Nat := forceClosesFrom 1 record

/-- The bytes of a run: its counter byte, then its data (42_cobs.md R110). -/
def runBytes (data : List Byte) : List Byte := BitVec.ofNat 8 (data.length + 1) :: data

/-- The record that a sequence of runs stands for (42_cobs.md R110). -/
def recordOfRuns : List (List Byte) → List Byte
  | [] => []
  | [r] => r
  | r :: rs => r ++ (if r.length = 254 then [] else [0#8]) ++ recordOfRuns rs

end Sys2Proof.Machine
end

