-- ==== Sys2Proof/Certificates/Slice0/Obligations.lean ====
section
/-! DEFINITION. The statements for the provers. Each docstring names the rules of spec/ it rests on; where a clause rests on
a choice of the model it names the log entry. Addresses stored to are given by the expressions the meanings use. -/

open Sys2Proof Sys2Proof.Machine

/-! ### Encoding and decoding -/

/-- 30_encoding.md R61, R62: decoding the word of a command gives the command, for every command and every `len`. -/
def Obligations.DecodeAfterEncode : Prop := ∀ i : Instr, decodeWord (encode i) = i

/-- 30_encoding.md R61, R62, R65: every 20-bit word is the word of the command it decodes to, the reserved ones too. -/
def Obligations.EncodeAfterDecode : Prop := ∀ w : CmdWord, encode (decodeWord w) = w

/-- 30_encoding.md R60, R62: the opcode table's 20 bits of a word give its command, in whole bytes too; more bits than the
port has are rejected by name (log 15). -/
def Obligations.TableWordsDecode : Prop :=
  (∀ w : CmdWord, decodeTableWord 20 w.toNat = some (decodeWord w) ∧ decodeTableWord 24 w.toNat = some (decodeWord w)) ∧
  (∀ n : Nat, 2 ^ 20 ≤ n → decodeBits n = .rejected .widerThanPort)

/-- 30_encoding.md R70, 95_test_vectors.md V-ENC-1 to V-ENC-14: thirteen words written out, and their commands. -/
def Obligations.SpecWordsDecode : Prop :=
  decodeWord 0x00000#20 = .nop 0 ∧ decodeWord 0x1FFFF#20 = .push 0xFFFF ∧ decodeWord 0x20003#20 = .pushblk 3 ∧
  decodeWord 0x30000#20 = .pop 0 ∧ decodeWord 0x40010#20 = .popblk 16 ∧ decodeWord 0x50000#20 = .free 0 ∧
  decodeWord 0x60000#20 = .occ 0 ∧ decodeWord 0x70000#20 = .clear 0 ∧ decodeWord 0x80009#20 = .crc32 9 ∧
  decodeWord 0x90004#20 = .cobsenc 4 ∧ decodeWord 0xA0005#20 = .cobsdec 5 ∧ decodeWord 0xB0000#20 = .reservedB 0 ∧
  decodeWord 0xFFFFF#20 = .reservedF 0xFFFF

/-! ### One step runs the decoded command -/

/-- 30_encoding.md R71: a command presented to an idle port is taken, its `P_wdata` sampled, and its first step is the
machine's step: `exec` of the decoded word. That every port's earlier response has gone by then is the model's choice
(log 8). -/
def Obligations.IssuedWordRunsItsCommand : Prop :=
  ∀ (s : State) (x : Port) (w : CmdWord) (v : Elem) (rest : List Input),
    s.inputs = .issue x w v :: rest → s.resetSeen = true → s.busy x = false →
    step s = exec (decodeWord w) (issued x v rest s) ∧ (issued x v rest s).port = x ∧
      (issued x v rest s).inputs = rest ∧ (issued x v rest s).lasting = s.lasting ∧
      (∀ y, (issued x v rest s).rsp y = none) ∧
      (x = .p → (issued x v rest s).pWdata = v % 2 ^ s.params.width)

/-- Log 14 (the model's own): the word given to `withFetchWord` is the command of the very next step. -/
def Obligations.FetchWordRunsNext : Prop :=
  ∀ (s : State) (w : CmdWord),
    step (s.withFetchWord 24 w.toNat) =
      exec (decodeWord w) (issued (homePort (decodeWord w)) 0 s.inputs (s.withFetchWord 24 w.toNat))

/-- 30_encoding.md R71: a command presented while the port is busy is ignored. That every port's earlier response has gone
after that step is the model's choice (log 8). -/
def Obligations.BusyPortIgnoresCommand : Prop :=
  ∀ (s : State) (x : Port) (w : CmdWord) (v : Elem) (rest : List Input),
    s.inputs = .issue x w v :: rest → s.resetSeen = true → s.busy x = true →
    ∃ t, step s = .next t ∧ t.inputs = rest ∧ t.lasting = s.lasting ∧ ∀ y, t.rsp y = none

/-- 70_reset_and_hazards.md R150, 93_implementation_defined.md U9: nothing but reset has a meaning before the first reset
(the refusal is the model's, log 12). -/
def Obligations.RefusedBeforeFirstReset : Prop :=
  ∀ s : State, s.resetSeen = false → (∀ rest, s.inputs ≠ .reset :: rest) → step s = .refused .beforeFirstReset

/-! ### Invariants and parameters -/

/-- Every step keeps the invariant of the block: indices in range, spaces in canonical form and inside their depth,
elements of `WIDTH` bits, blocks in flight that fit, a window of written slots. -/
def Obligations.StepKeepsInvariant : Prop := ∀ s t : State, s.Inv → step s = .next t → t.Inv

/-- The state after reset meets the invariant, for every legal parameters and whatever is to come. -/
def Obligations.ResetMeetsInvariant : Prop :=
  (∀ (p : Params) (ins : List Input), p.ok = true → (setInputs ins (State.resetWith p)).Inv) ∧
  State.Inv State.reset

/-- 10_state.md R27: `0 <= occ <= CAPACITY-1`, `0 <= free <= CAPACITY-1` and `occ + free = CAPACITY-1` in every state a
run from reset reaches, and in every state that meets the invariant. -/
def Obligations.OccupancyInvariant : Prop :=
  (∀ (p : Params) (ins : List Input) (k : Nat) (t : State), p.ok = true →
    Sys2Proof.core.run k (setInputs ins (State.resetWith p)) = .next t →
    0 ≤ t.occ ∧ t.occ ≤ p.capacity - 1 ∧ 0 ≤ t.free ∧ t.free ≤ p.capacity - 1 ∧ t.occ + t.free = p.capacity - 1) ∧
  (∀ s : State, s.Inv →
    0 ≤ s.occ ∧ s.occ ≤ s.params.capacity - 1 ∧ 0 ≤ s.free ∧ s.free ≤ s.params.capacity - 1 ∧
      s.occ + s.free = s.params.capacity - 1)

/-- 00_scope.md R7, 10_state.md R22 to R24: `IDXW` is the least width of at least one bit that holds `CAPACITY` values,
and both indices fit it. -/
def Obligations.IndexWidthIsLeast : Prop :=
  (∀ p : Params, p.ok = true →
    1 ≤ p.idxw ∧ p.capacity ≤ 2 ^ p.idxw ∧ ∀ k, 1 ≤ k → p.capacity ≤ 2 ^ k → p.idxw ≤ k) ∧
  (∀ s : State, s.Inv → s.rd < 2 ^ s.params.idxw ∧ s.wr < 2 ^ s.params.idxw)

/-- 00_scope.md R7: the parameters are fixed for the lifetime of the block. -/
def Obligations.ParametersNeverChange : Prop := ∀ s t : State, step s = .next t → t.params = s.params

/-- 10_state.md R26: full and empty by the counts, never both. -/
def Obligations.FlagsFollowOccupancy : Prop :=
  ∀ s : State, s.Inv →
    (s.full = true ↔ s.occ = s.params.capacity - 1) ∧ (s.full = true ↔ s.free = 0) ∧
      (s.empty = true ↔ s.occ = 0) ∧ ¬ (s.full = true ∧ s.empty = true)

/-! ### The queue commands -/

/-- 40_fifo.md R80: NOP answers OK on every port and changes nothing. -/
def Obligations.NopAnswersOk : Prop :=
  ∀ (len : Len) (s : State), ∃ t, exec (.nop len) s = .next t ∧ t.rsp s.port = some ⟨.ok, 0⟩ ∧
    SameIndices s t ∧ Frame s.port nowhere nowhere nowhere s t

/-- 40_fifo.md R81: PUSH, whole: its encoding and its port; FAIL without a mutation exactly when the queue is full;
otherwise the element of `P_wdata` stands in `MEM[WR]`, `WR` advances, and the flags follow. -/
def Obligations.PushAppendsOrFails : Prop :=
  ∀ (len : Len) (s : State),
    decodeWord (0x1#4 ++ len) = .push len ∧
    (s.port ≠ .p → ∃ t, exec (.push len) s = .next t ∧ t.rsp s.port = some ⟨.illegal, 0⟩ ∧ SameIndices s t ∧
      Frame s.port nowhere nowhere nowhere s t) ∧
    (s.port = .p → bump s.params.capacity s.wr = s.rd →
      ∃ t, exec (.push len) s = .next t ∧ t.rsp .p = some ⟨.fail, 0⟩ ∧ SameIndices s t ∧
        Frame .p nowhere nowhere nowhere s t) ∧
    (s.port = .p → bump s.params.capacity s.wr ≠ s.rd →
      ∃ t, exec (.push len) s = .next t ∧ t.rsp .p = some ⟨.ok, 0⟩ ∧ t.readMem s.wr = s.pWdata ∧
        t.wr = (s.wr + 1) % s.params.capacity ∧ t.rd = s.rd ∧ t.pInflight = s.pInflight ∧
        t.cInflight = s.cInflight ∧ Frame .p (fun a => a = s.wr) nowhere nowhere s t ∧
        (s.Inv → t.occ = s.occ + 1 ∧ t.empty = false ∧ (t.full = true ↔ t.occ = s.params.capacity - 1)))

/-- 40_fifo.md R82: the check step of PUSHBLK: FAIL when `free < n`, OK at once when `n = 0`, else the block is in flight
and the command has not answered. `MEM`, `WR`, `RD` are untouched. -/
def Obligations.PushblkCheckStep : Prop :=
  ∀ (len : Len) (s : State), s.port = .p →
    (s.free < len.toNat → ∃ t, exec (.pushblk len) s = .next t ∧ t.rsp .p = some ⟨.fail, 0⟩ ∧ SameIndices s t ∧
      Frame .p nowhere nowhere nowhere s t) ∧
    (len.toNat = 0 → ∃ t, exec (.pushblk len) s = .next t ∧ t.rsp .p = some ⟨.ok, 0⟩ ∧ SameIndices s t ∧
      Frame .p nowhere nowhere nowhere s t) ∧
    (len.toNat ≠ 0 → len.toNat ≤ s.free → ∃ t, exec (.pushblk len) s = .next t ∧
      t.pInflight = some ⟨len.toNat, 0⟩ ∧ t.rsp .p = s.rsp .p ∧ t.wr = s.wr ∧ t.rd = s.rd ∧
      t.cInflight = s.cInflight ∧ Frame .p nowhere nowhere nowhere s t)

/-- 40_fifo.md R82: an element step of PUSHBLK, on its turn in the schedule or on an idle turn, stores `PBUF[i]` in
`MEM[WR]` and advances `WR`; the last one ends the command with OK. Which block command an idle turn moves is the model's
choice (log 2), and so is that the response of the step before has gone (log 8). -/
def Obligations.PushblkElementStep : Prop :=
  ∀ (s : State) (r : PushInflight),
    s.elementPort = some .p → s.resetSeen = true → s.pInflight = some r →
    ∃ t, step s = .next t ∧ t.readMem s.wr = s.readPbuf r.i ∧ t.wr = (s.wr + 1) % s.params.capacity ∧
      t.rd = s.rd ∧ t.cInflight = s.cInflight ∧
      (r.i + 1 = r.n → t.pInflight = none ∧ t.rsp .p = some ⟨.ok, 0⟩) ∧
      (r.i + 1 ≠ r.n → t.pInflight = some ⟨r.n, r.i + 1⟩ ∧ t.rsp .p = none) ∧
      Frame .p (fun a => a = s.wr) nowhere nowhere (newStep (setInputs s.inputs.tail s)) t

/-- 40_fifo.md R83: POP of a queue that is not empty answers OK with the oldest element and advances `RD`; `MEM` keeps
its value (20_memory.md R45). -/
def Obligations.PopReturnsOldest : Prop :=
  ∀ (len : Len) (s : State), s.port = .c → s.rd ≠ s.wr →
    ∃ t, exec (.pop len) s = .next t ∧ t.rsp .c = some ⟨.ok, 0⟩ ∧ t.cRdata = s.readMem s.rd ∧
      t.rd = (s.rd + 1) % s.params.capacity ∧ t.wr = s.wr ∧ t.pInflight = s.pInflight ∧
      t.cInflight = s.cInflight ∧ Frame .c nowhere nowhere nowhere s t ∧
      (s.Inv → s.contents = t.cRdata :: t.contents ∧ t.full = false)

/-- 40_fifo.md R83: POP of an empty queue answers FAIL and changes nothing. -/
def Obligations.PopOnEmptyFails : Prop :=
  ∀ (len : Len) (s : State), s.port = .c → s.rd = s.wr →
    ∃ t, exec (.pop len) s = .next t ∧ t.rsp .c = some ⟨.fail, 0⟩ ∧ SameIndices s t ∧
      Frame .c nowhere nowhere nowhere s t

/-- 40_fifo.md R84: the count step of POPBLK fixes `min(occ, maxLen)`; 0 answers OK at once, else the block is in flight. -/
def Obligations.PopblkCountStep : Prop :=
  ∀ (len : Len) (s : State), s.port = .c →
    (min s.occ len.toNat = 0 → ∃ t, exec (.popblk len) s = .next t ∧ t.rsp .c = some ⟨.ok, 0⟩ ∧ SameIndices s t ∧
      Frame .c nowhere nowhere nowhere s t) ∧
    (min s.occ len.toNat ≠ 0 → ∃ t, exec (.popblk len) s = .next t ∧
      t.cInflight = some ⟨min s.occ len.toNat, 0⟩ ∧ t.rsp .c = s.rsp .c ∧ t.wr = s.wr ∧ t.rd = s.rd ∧
      t.pInflight = s.pInflight ∧ Frame .c nowhere nowhere nowhere s t)

/-- 40_fifo.md R84: an element step of POPBLK, on its turn in the schedule or on an idle turn, copies `MEM[RD]` to `CBUF[i]`
and advances `RD`; the last one ends the command with OK and the count. Which block command an idle turn moves is the
model's choice (log 2), and so is that the response of the step before has gone (log 8). -/
def Obligations.PopblkElementStep : Prop :=
  ∀ (s : State) (r : PopInflight),
    s.elementPort = some .c → s.resetSeen = true → s.cInflight = some r →
    ∃ t, step s = .next t ∧ t.readCbuf r.i = s.readMem s.rd ∧ t.rd = (s.rd + 1) % s.params.capacity ∧
      t.wr = s.wr ∧ t.pInflight = s.pInflight ∧
      (r.i + 1 = r.count → t.cInflight = none ∧ t.rsp .c = some ⟨.ok, BitVec.ofNat 16 r.count⟩) ∧
      (r.i + 1 ≠ r.count → t.cInflight = some ⟨r.count, r.i + 1⟩ ∧ t.rsp .c = none) ∧
      Frame .c nowhere (fun a => a = r.i) nowhere (newStep (setInputs s.inputs.tail s)) t

/-- 40_fifo.md R85: FREE answers the number of free slots on ports `P` and `C` and changes nothing. -/
def Obligations.FreeReportsFreeSlots : Prop :=
  ∀ (len : Len) (s : State), s.port = .p ∨ s.port = .c →
    ∃ t, exec (.free len) s = .next t ∧ t.rsp s.port = some ⟨.ok, BitVec.ofNat 16 s.free⟩ ∧ SameIndices s t ∧
      Frame s.port nowhere nowhere nowhere s t ∧ (s.Inv → (BitVec.ofNat 16 s.free).toNat = s.free)

/-- 40_fifo.md R86: OCC answers the number of queued elements on ports `P` and `C` and changes nothing. -/
def Obligations.OccReportsOccupied : Prop :=
  ∀ (len : Len) (s : State), s.port = .p ∨ s.port = .c →
    ∃ t, exec (.occ len) s = .next t ∧ t.rsp s.port = some ⟨.ok, BitVec.ofNat 16 s.occ⟩ ∧ SameIndices s t ∧
      Frame s.port nowhere nowhere nowhere s t ∧ (s.Inv → (BitVec.ofNat 16 s.occ).toNat = s.occ)

/-- 40_fifo.md R86, R89: in every state the FREE and OCC results add to `CAPACITY - 1`. -/
def Obligations.FreeAndOccResultsAddUp : Prop :=
  ∀ (m n : Len) (s : State), s.Inv → s.port = .p ∨ s.port = .c →
    ∃ t u a b, exec (.free m) s = .next t ∧ exec (.occ n) s = .next u ∧ t.rsp s.port = some ⟨.ok, a⟩ ∧
      u.rsp s.port = some ⟨.ok, b⟩ ∧ a.toNat + b.toNat = s.params.capacity - 1

/-- 40_fifo.md R87: CLEAR moves `RD` to `WR` and leaves the queue empty. -/
def Obligations.ClearEmptiesQueue : Prop :=
  ∀ (len : Len) (s : State), s.port = .c →
    ∃ t, exec (.clear len) s = .next t ∧ t.rsp .c = some ⟨.ok, 0⟩ ∧ t.rd = s.wr ∧ t.wr = s.wr ∧
      t.pInflight = s.pInflight ∧ t.cInflight = s.cInflight ∧ Frame .c nowhere nowhere nowhere s t ∧
      t.occ = 0 ∧ t.free = s.params.capacity - 1 ∧ t.empty = true ∧ t.contents = [] ∧ (s.Inv → t.full = false)

/-! ### The checksum command -/

/-- 41_crc32.md R100: CRC32 of a span within the limit answers OK with the checksum of `KBUF[0..len-1]` and changes no
state. -/
def Obligations.Crc32AnswersChecksum : Prop :=
  ∀ (len : Len) (s : State), s.port = .k → len.toNat ≤ s.params.maxSpan →
    ∃ t, exec (.crc32 len) s = .next t ∧ t.rsp .k = some ⟨.ok, 0⟩ ∧
      t.kCrc = crc32 ((List.range len.toNat).map s.readKbuf) ∧ SameIndices s t ∧
      Frame .k nowhere nowhere nowhere s t

/-- 41_crc32.md R104: the document's two check values. -/
def Obligations.Crc32CheckValues : Prop :=
  crc32 [] = 0x00000000#32 ∧
  crc32 [0x31#8, 0x32#8, 0x33#8, 0x34#8, 0x35#8, 0x36#8, 0x37#8, 0x38#8, 0x39#8] = 0xCBF43926#32

/-- 41_crc32.md R103: a CRC32 starts afresh: two CRC32 commands over equal spans give equal results, whatever else the
two states hold. -/
def Obligations.Crc32DependsOnSpanOnly : Prop :=
  ∀ (len : Len) (s t s' t' : State), s.port = .k → t.port = .k → len.toNat ≤ s.params.maxSpan →
    len.toNat ≤ t.params.maxSpan → (∀ i, i < len.toNat → s.readKbuf i = t.readKbuf i) →
    exec (.crc32 len) s = .next s' → exec (.crc32 len) t = .next t' → s'.kCrc = t'.kCrc

/-- 41_crc32.md R101: no pass of the loop loses a bit, so spans that differ in one byte have different checksums. -/
def Obligations.Crc32SeesOneChangedByte : Prop :=
  ∀ (front back : List Byte) (a b : Byte), a ≠ b → crc32 (front ++ a :: back) ≠ crc32 (front ++ b :: back)

/-! ### The framing commands -/

/-- 42_cobs.md R111: COBSENC of a record within the limit answers OK and its length, and writes the encoding to
`BOUT[0..outLength-1]` and nothing else. -/
def Obligations.CobsencWritesEncoding : Prop :=
  ∀ (len : Len) (s : State) (out : List Byte), s.port = .b → len.toNat ≤ s.params.maxRecord →
    out = cobsEncode ((List.range len.toNat).map s.readBin) →
    ∃ t, exec (.cobsenc len) s = .next t ∧ t.rsp .b = some ⟨.ok, BitVec.ofNat 16 out.length⟩ ∧
      (List.range out.length).map t.readBout = out ∧ SameIndices s t ∧
      Frame .b nowhere nowhere (fun a => a < out.length) s t

/-- 42_cobs.md R117: COBSDEC of a well-formed span within the limit answers OK and its length, and writes the record to
`BOUT[0..outLength-1]` and nothing else. -/
def Obligations.CobsdecWritesRecord : Prop :=
  ∀ (len : Len) (s : State) (out : List Byte), s.port = .b → len.toNat ≤ s.params.maxEncoded →
    cobsDecode ((List.range len.toNat).map s.readBin) = some out →
    ∃ t, exec (.cobsdec len) s = .next t ∧ t.rsp .b = some ⟨.ok, BitVec.ofNat 16 out.length⟩ ∧
      (List.range out.length).map t.readBout = out ∧ SameIndices s t ∧
      Frame .b nowhere nowhere (fun a => a < out.length) s t

/-- 42_cobs.md R117, R121: COBSDEC of a malformed span answers DECERR and count 0; no byte of `BOUT` has a known value
afterwards, and nothing else changes. -/
def Obligations.CobsdecReportsMalformed : Prop :=
  ∀ (len : Len) (s : State), s.port = .b → len.toNat ≤ s.params.maxEncoded →
    cobsDecode ((List.range len.toNat).map s.readBin) = none →
    ∃ t, exec (.cobsdec len) s = .next t ∧ t.rsp .b = some ⟨.decerr, 0⟩ ∧ (∀ i, t.bout.lookup i = none) ∧
      SameIndices s t ∧ Frame .b nowhere nowhere (fun _ => True) s t

/-- 42_cobs.md R123: the round trip, of the functions and of the two commands: a record of at most `MAX_RECORD` bytes,
encoded by COBSENC and decoded by COBSDEC from a `BIN` that holds the encoding, comes back with its length. -/
def Obligations.CobsRoundTrip : Prop :=
  (∀ record : List Byte, cobsDecode (cobsEncode record) = some record) ∧
  (∀ (len m : Len) (s t u : State), s.params.ok = true → s.port = .b → len.toNat ≤ s.params.maxRecord →
    exec (.cobsenc len) s = .next t → t.rsp .b = some ⟨.ok, m⟩ →
    u.params = s.params → u.port = .b → (∀ i, i < m.toNat → u.readBin i = t.readBout i) →
    ∃ w, exec (.cobsdec m) u = .next w ∧ w.rsp .b = some ⟨.ok, len⟩ ∧
      ∀ i, i < len.toNat → w.readBout i = s.readBin i)

/-- 42_cobs.md R115: the output has no zero byte; its length is `len + 1 + F` with `F` the number of force-closes; `F` is
at most `len / 254`, and that much for a record without a zero byte; so `MAX_ENCODED` bytes hold it. -/
def Obligations.EncodedBytesAndLength : Prop :=
  ∀ record : List Byte,
    0x00#8 ∉ cobsEncode record ∧
    (cobsEncode record).length = record.length + 1 + forceCloses record ∧
    forceCloses record ≤ record.length / 254 ∧
    (0x00#8 ∉ record → forceCloses record = record.length / 254) ∧
    (∀ p : Params, record.length ≤ p.maxRecord → (cobsEncode record).length ≤ p.maxEncoded)

/-- 42_cobs.md R110: the output is a sequence of runs of at most 254 non-zero data bytes that stands for the record. -/
def Obligations.EncodedRecordIsRuns : Prop :=
  ∀ record : List Byte, ∃ runs : List (List Byte),
    runs ≠ [] ∧ (∀ r ∈ runs, r.length ≤ 254 ∧ 0x00#8 ∉ r) ∧ cobsEncode record = runs.flatMap runBytes ∧
      recordOfRuns runs = record

/-- 42_cobs.md R117, R121: a record decoded from `len` bytes has at most `max(0, len - 1)` bytes. -/
def Obligations.DecodedRecordIsShorter : Prop :=
  ∀ span out : List Byte, cobsDecode span = some out → out.length ≤ span.length - 1

/-- 42_cobs.md R118 to R120: the decoder, counter by counter: a zero counter and a counter that claims more bytes than
remain are errors, a counter that claims exactly the rest is not; the data is copied verbatim, zeros included, and one zero
stands between runs unless the run was force-closed. -/
def Obligations.DecoderTakesRunByRun : Prop :=
  cobsDecode [] = some [] ∧
  ∀ (code : Byte) (rest : List Byte),
    (code = 0x00#8 → cobsDecode (code :: rest) = none) ∧
    (rest.length < code.toNat - 1 → cobsDecode (code :: rest) = none) ∧
    (code ≠ 0x00#8 → code.toNat - 1 = rest.length → cobsDecode (code :: rest) = some rest) ∧
    (code ≠ 0x00#8 → code.toNat - 1 < rest.length →
      cobsDecode (code :: rest) = (cobsDecode (rest.drop (code.toNat - 1))).map (fun out =>
        rest.take (code.toNat - 1) ++ (if code = 0xFF#8 then [] else [0x00#8]) ++ out))

/-- 42_cobs.md R124: the decoder accepts a final force-closed run with and without the empty run after it, and gives the
same record; and it copies a zero data byte that no encoder writes. -/
def Obligations.DecoderAcceptsMore : Prop :=
  (∀ data : List Byte, data.length = 254 →
    cobsDecode (0xFF#8 :: data) = some data ∧ cobsDecode (0xFF#8 :: data ++ [0x01#8]) = some data ∧
      (0x00#8 ∉ data → cobsEncode data = 0xFF#8 :: data ++ [0x01#8])) ∧
  cobsDecode [0x02#8, 0x00#8] = some [0x00#8] ∧ cobsEncode [0x00#8] = [0x01#8, 0x01#8]

/-- 10_state.md R36, 42_cobs.md R122: what the codec commands answer and write depends on `BIN[0..len-1]` and `len`
alone. -/
def Obligations.CodecDependsOnSpanOnly : Prop :=
  ∀ (len : Len) (i : Instr) (s t s' t' : State), i = .cobsenc len ∨ i = .cobsdec len → s.params = t.params →
    s.port = .b → t.port = .b → i.lenFits s.params = true →
    (∀ k, k < len.toNat → s.readBin k = t.readBin k) → exec i s = .next s' → exec i t = .next t' →
    s'.rsp .b = t'.rsp .b ∧
      ∀ r, s'.rsp .b = some r → r.status = .ok → ∀ k, k < r.count.toNat → s'.readBout k = t'.readBout k

/-! ### Refusals and failures -/

/-- 30_encoding.md R65: a reserved operation code on any port answers ILLEGAL and changes no state. -/
def Obligations.ReservedAnswersIllegal : Prop :=
  ∀ (len : Len) (i : Instr) (s : State),
    i ∈ [Instr.reservedB len, .reservedC len, .reservedD len, .reservedE len, .reservedF len] →
    ∃ t, exec i s = .next t ∧ t.rsp s.port = some ⟨.illegal, 0⟩ ∧ SameIndices s t ∧
      Frame s.port nowhere nowhere nowhere s t ∧ t.lasting = s.lasting

/-- 30_encoding.md R64, R65, R69: a command answers ILLEGAL exactly when its code is reserved, its port is not one it is
legal on, or its length is over its limit; and then it changes no state. -/
def Obligations.IllegalExactlyWhenIllFormed : Prop :=
  ∀ (i : Instr) (s : State), s.rsp s.port = none →
    ∃ t, exec i s = .next t ∧
      (i.wellFormed s.params s.port = false → t.rsp s.port = some ⟨.illegal, 0⟩ ∧ t.lasting = s.lasting) ∧
      (i.wellFormed s.params s.port = true → ∀ r, t.rsp s.port = some r → r.status ≠ .illegal)

/-- 60_exceptions.md R135, 30_encoding.md R67: after FAIL and after ILLEGAL the lasting state is exactly the state before;
after DECERR it is, but for `BOUT`; none of them gives a count. -/
def Obligations.FailureLeavesStateUnchanged : Prop :=
  ∀ (i : Instr) (s t : State) (r : Response), s.rsp s.port = none → exec i s = .next t → t.rsp s.port = some r →
    (r.status = .fail → t.lasting = s.lasting ∧ r.count = 0) ∧
    (r.status = .illegal → t.lasting = s.lasting ∧ r.count = 0) ∧
    (r.status = .decerr → setBout s.bout t.lasting = s.lasting ∧ r.count = 0)

/-! ### Ownership and interleaving -/

/-- 20_memory.md R50, R53: an act or a step of a port other than `P` writes none of `WR`, `MEM`, `PBUF` and the PUSHBLK in
flight; of a port other than `C`, none of `RD`, `CBUF` and the POPBLK in flight; and so for `KBUF`, and for `BIN` and `BOUT`.
The element steps of idle turns are among the steps (whose turn it is: log 2), and an idle turn with nothing in flight
changes no lasting state. -/
def Obligations.EachSideWritesItsOwn : Prop :=
  (∀ (s t : State) (x : Port), s.stepIsOf x = true → step s = .next t →
    (x ≠ .p → t.wr = s.wr ∧ t.mem = s.mem ∧ t.pbuf = s.pbuf ∧ t.pInflight = s.pInflight) ∧
    (x ≠ .c → t.rd = s.rd ∧ t.cbuf = s.cbuf ∧ t.cInflight = s.cInflight) ∧
    (x ≠ .k → t.kbuf = s.kbuf) ∧
    (x ≠ .b → t.bin = s.bin ∧ t.bout = s.bout)) ∧
  (∀ s t : State, s.inputs = [] → s.elementPort = none → step s = .next t → t.lasting = s.lasting)

/-- 20_memory.md R49: the checksum unit and the codec share no state with the queue: an act of theirs and one of the queue
give the same lasting state in either order. -/
def Obligations.OtherUnitsCommuteWithQueue : Prop :=
  ∀ (s t : State) (q o : Input), q.onQueue = true → o.offQueue = true →
    (Sys2Proof.core.run 2 (setInputs [q, o] s) = .next t →
      ∃ u : State, Sys2Proof.core.run 2 (setInputs [o, q] s) = .next u ∧ u.lasting = t.lasting) ∧
    (Sys2Proof.core.run 2 (setInputs [o, q] s) = .next t →
      ∃ u : State, Sys2Proof.core.run 2 (setInputs [q, o] s) = .next u ∧ u.lasting = t.lasting)

/-- 20_memory.md R49: a PUSH and a POP of a queue neither full nor empty both succeed in either order, with the same
result and the same lasting state. -/
def Obligations.PushAndPopCommute : Prop :=
  ∀ (s : State) (m n : Len) (v w : Elem), s.Inv → s.resetSeen = true → s.pInflight = none → s.cInflight = none →
    s.full = false → s.empty = false →
    ∃ a b c d : State,
      step (setInputs [.issue .p (encode (.push m)) v, .issue .c (encode (.pop n)) w] s) = .next a ∧
      step a = .next b ∧
      step (setInputs [.issue .c (encode (.pop n)) w, .issue .p (encode (.push m)) v] s) = .next c ∧
      step c = .next d ∧
      a.pRsp = some ⟨.ok, 0⟩ ∧ b.cRsp = some ⟨.ok, 0⟩ ∧ c.cRsp = some ⟨.ok, 0⟩ ∧ d.pRsp = some ⟨.ok, 0⟩ ∧
      b.cRdata = c.cRdata ∧ b.cRdata = s.readMem s.rd ∧ b.lasting = d.lasting

/-- 20_memory.md R49: a PUSH and a POP in one clock cycle that both test the state at its start: on a full queue that is
PUSH, which fails, then POP, which succeeds; on an empty queue POP, which fails, then PUSH, which succeeds. -/
def Obligations.SameCycleAtTheBounds : Prop :=
  ∀ (s : State) (m n : Len) (v w : Elem), s.Inv → s.resetSeen = true → s.pInflight = none → s.cInflight = none →
    (s.full = true → ∃ a b : State,
      step (setInputs [.issue .p (encode (.push m)) v, .issue .c (encode (.pop n)) w] s) = .next a ∧
      step a = .next b ∧ a.pRsp = some ⟨.fail, 0⟩ ∧ b.cRsp = some ⟨.ok, 0⟩ ∧
      s.contents = b.cRdata :: b.contents) ∧
    (s.empty = true → ∃ a b : State,
      step (setInputs [.issue .c (encode (.pop n)) w, .issue .p (encode (.push m)) v] s) = .next a ∧
      step a = .next b ∧ a.cRsp = some ⟨.fail, 0⟩ ∧ b.pRsp = some ⟨.ok, 0⟩ ∧
      b.contents = [v % 2 ^ s.params.width])

/-- 40_fifo.md R90: in a state that meets the invariant (StepKeepsInvariant) the next element step of a PUSHBLK in flight
does not meet a full queue, and that of a POPBLK in flight does not meet an empty one. -/
def Obligations.ElementStepsNeverBlocked : Prop :=
  ∀ s : State, s.Inv →
    (∀ r, s.pInflight = some r → s.full = false) ∧ (∀ r, s.cInflight = some r → s.empty = false)

/-- 40_fifo.md R91: the consumer's steps never lower `free`, the producer's steps never lower `occ`, and the steps of the
other ports, and idle turns with nothing in flight, change neither. The element steps of idle turns are among the steps
(whose turn it is: log 2). -/
def Obligations.CountsGoStaleOneWay : Prop :=
  ∀ s t : State, s.Inv → step s = .next t →
    (s.stepIsOf .c = true → s.free ≤ t.free) ∧ (s.stepIsOf .p = true → s.occ ≤ t.occ) ∧
    (s.stepIsOf .k = true ∨ s.stepIsOf .b = true ∨ (s.inputs = [] ∧ s.elementPort = none) →
      t.occ = s.occ ∧ t.free = s.free)

/-! ### Runs -/

/-- 40_fifo.md R88: in any run of any inputs, from a state that meets the invariant, what is stored, returned and discarded
is what a queue in order does, and what it then holds is the contents. -/
def Obligations.QueueKeepsOrder : Prop :=
  ∀ (k : Nat) (s t : State), s.Inv → Sys2Proof.core.run k s = .next t →
    replay s.contents (eventsOf k s) = some t.contents

/-- 40_fifo.md R88: from an empty queue and without CLEAR or reset, the elements returned are the elements stored, from
the first, in order. -/
def Obligations.ReturnedIsPrefixOfStored : Prop :=
  ∀ (k : Nat) (s t : State), s.Inv → s.empty = true → Sys2Proof.core.run k s = .next t →
    QueueEvent.emptied ∉ eventsOf k s → returnedBy (eventsOf k s) <+: storedBy (eventsOf k s)

/-- 40_fifo.md R89: from an empty queue `CAPACITY - 1` PUSH commands in a row succeed, each storing its element, and the
next one fails and leaves the contents, and the whole lasting state, unchanged. -/
def Obligations.CapacityBoundary : Prop :=
  ∀ (s : State) (vs : List Elem) (m : Len), s.Inv → s.resetSeen = true → s.pInflight = none → s.empty = true →
    vs.length = s.params.capacity →
    s.inputs = vs.map (fun v => Input.issue .p (encode (.push m)) v) →
    (∀ k, k < s.params.capacity - 1 → ∃ t : State, Sys2Proof.core.run (k + 1) s = .next t ∧
      t.pRsp = some ⟨.ok, 0⟩ ∧ t.contents = (vs.take (k + 1)).map (fun v => v % 2 ^ s.params.width)) ∧
    (∃ t u : State, Sys2Proof.core.run (s.params.capacity - 1) s = .next t ∧
      Sys2Proof.core.run s.params.capacity s = .next u ∧ u.pRsp = some ⟨.fail, 0⟩ ∧ u.lasting = t.lasting ∧
      u.contents = (vs.take (s.params.capacity - 1)).map (fun v => v % 2 ^ s.params.width))

/-- 40_fifo.md R82: a PUSHBLK that fits, its check step and its `n` element steps taken one after another, ends with OK
and has appended `PBUF[0..n-1]` to the contents. -/
def Obligations.PushblkAppendsBlock : Prop :=
  ∀ (s : State) (len : Len) (v : Elem) (rest : List Input), s.Inv → s.resetSeen = true → s.pInflight = none →
    len.toNat ≤ s.free →
    s.inputs = .issue .p (encode (.pushblk len)) v :: (List.replicate len.toNat (.advance .p) ++ rest) →
    ∃ t : State, Sys2Proof.core.run (1 + len.toNat) s = .next t ∧ t.pRsp = some ⟨.ok, 0⟩ ∧ t.pInflight = none ∧
      t.inputs = rest ∧ t.contents = s.contents ++ (List.range len.toNat).map s.readPbuf

/-- 40_fifo.md R84: a POPBLK, its count step and its element steps taken one after another, ends with OK and the count
`min(occ, maxLen)`; that many of the oldest elements stand in `CBUF`, in order, and the rest stays in the queue. -/
def Obligations.PopblkTakesOldest : Prop :=
  ∀ (s : State) (len : Len) (v : Elem) (rest : List Input), s.Inv → s.resetSeen = true → s.cInflight = none →
    s.inputs = .issue .c (encode (.popblk len)) v :: (List.replicate (min s.occ len.toNat) (.advance .c) ++ rest) →
    ∃ (t : State) (n : Nat), n = min s.occ len.toNat ∧ Sys2Proof.core.run (1 + n) s = .next t ∧
      t.cRsp = some ⟨.ok, BitVec.ofNat 16 n⟩ ∧ t.cInflight = none ∧ t.inputs = rest ∧
      (List.range n).map t.readCbuf = s.contents.take n ∧ t.contents = s.contents.drop n ∧
      ∀ i, n ≤ i → t.readCbuf i = s.readCbuf i

/-- 70_reset_and_hazards.md R161, 40_fifo.md R87: a CLEAR between two element steps of a PUSHBLK discards the part already
pushed and keeps the part pushed afterwards, and the PUSHBLK still ends with OK. -/
def Obligations.ClearInsidePushblk : Prop :=
  ∀ (s : State) (r : PushInflight) (len : Len) (v : Elem), s.Inv → s.resetSeen = true → s.cInflight = none →
    s.pInflight = some r →
    s.inputs = .issue .c (encode (.clear len)) v :: List.replicate (r.n - r.i) (.advance .p) →
    ∃ t : State, Sys2Proof.core.run (1 + (r.n - r.i)) s = .next t ∧ t.pRsp = some ⟨.ok, 0⟩ ∧ t.pInflight = none ∧
      t.contents = (List.range (r.n - r.i)).map (fun k => s.readPbuf (r.i + k))

/-- 70_reset_and_hazards.md R162, 93_implementation_defined.md U14: with nothing more from outside, a block command in
flight responds after as many steps as it has elements left. The order of the two ports is the model's choice (log 2). -/
def Obligations.BlockCommandsRespond : Prop :=
  ∀ s : State, s.Inv → s.resetSeen = true → s.inputs = [] →
    (∀ r, s.pInflight = some r → ∃ t : State, Sys2Proof.core.run (r.n - r.i) s = .next t ∧ t.pInflight = none ∧
      t.pRsp = some ⟨.ok, 0⟩ ∧ t.cInflight = s.cInflight) ∧
    (∀ r, s.pInflight = none → s.cInflight = some r → ∃ t : State, Sys2Proof.core.run (r.count - r.i) s = .next t ∧
      t.cInflight = none ∧ t.cRsp = some ⟨.ok, BitVec.ofNat 16 r.count⟩)

/-! ### Reset and the agents' acts -/

/-- 10_state.md R35, 70_reset_and_hazards.md R151: the state after reset, item by item, for every legal parameters. -/
def Obligations.StateAfterReset : Prop :=
  ∀ p : Params, p.ok = true → ∀ s : State, s = State.resetWith p →
    s.params = p ∧ s.rd = 0 ∧ s.wr = 0 ∧ s.occ = 0 ∧ s.free = p.capacity - 1 ∧ s.empty = true ∧ s.full = false ∧
    s.contents = [] ∧ s.pInflight = none ∧ s.cInflight = none ∧ (∀ x, s.busy x = false ∧ s.rspValid x = false) ∧
    (∀ i, s.mem.lookup i = none ∧ s.pbuf.lookup i = none ∧ s.cbuf.lookup i = none ∧ s.kbuf.lookup i = none ∧
      s.bin.lookup i = none ∧ s.bout.lookup i = none)

/-- 70_reset_and_hazards.md R150 to R152: reset in any state, a block command in flight or not, empties the queue, leaves
nothing in flight and no response, and no element of any space with a known value (log 6). -/
def Obligations.ResetFromAnyState : Prop :=
  ∀ (s : State) (rest : List Input), s.inputs = .reset :: rest →
    ∃ t, step s = .next t ∧ t.inputs = rest ∧ t.params = s.params ∧ t.resetSeen = true ∧ t.rd = 0 ∧ t.wr = 0 ∧
      t.contents = [] ∧ t.pInflight = none ∧ t.cInflight = none ∧
      (∀ x, t.busy x = false ∧ t.rspValid x = false) ∧
      (∀ i, t.mem.lookup i = none ∧ t.pbuf.lookup i = none ∧ t.cbuf.lookup i = none ∧ t.kbuf.lookup i = none ∧
        t.bin.lookup i = none ∧ t.bout.lookup i = none)

/-- 20_memory.md R40, R53, 93_implementation_defined.md U6: an agent's write of an element of its buffer while the port is
idle sets that element and nothing else; a write of `PBUF` while a PUSHBLK is in flight leaves no element of `PBUF` with a
known value (log 10); an index outside the buffer is a fault (log 11). -/
def Obligations.AgentWritesItsBuffer : Prop :=
  ∀ (s : State) (i : Nat) (rest : List Input), s.resetSeen = true →
    (∀ v : Elem, s.inputs = .writePbuf i v :: rest →
      (i < s.params.capacity - 1 → s.pInflight = none → ∃ t, step s = .next t ∧
        t.readPbuf i = v % 2 ^ s.params.width ∧ (∀ a, a ≠ i → t.readPbuf a = s.readPbuf a) ∧
        setPbuf s.pbuf t.lasting = s.lasting) ∧
      (i < s.params.capacity - 1 → s.pInflight ≠ none → ∃ t, step s = .next t ∧ (∀ a, t.pbuf.lookup a = none) ∧
        setPbuf s.pbuf t.lasting = s.lasting) ∧
      (s.params.capacity - 1 ≤ i → step s = .fault .noSuchElement)) ∧
    (∀ v : Byte, s.inputs = .writeKbuf i v :: rest →
      (i < s.params.maxSpan → ∃ t, step s = .next t ∧ t.readKbuf i = v ∧
        (∀ a, a ≠ i → t.readKbuf a = s.readKbuf a) ∧ setKbuf s.kbuf t.lasting = s.lasting) ∧
      (s.params.maxSpan ≤ i → step s = .fault .noSuchElement)) ∧
    (∀ v : Byte, s.inputs = .writeBin i v :: rest →
      (i < s.params.maxEncoded → ∃ t, step s = .next t ∧ t.readBin i = v ∧
        (∀ a, a ≠ i → t.readBin a = s.readBin a) ∧ setBin s.bin t.lasting = s.lasting) ∧
      (s.params.maxEncoded ≤ i → step s = .fault .noSuchElement))

/-- 30_encoding.md R60, R67, R68, R71, 20_memory.md R53: the outputs of the ports show the response with its status code and
its count, and whether a block command keeps the port busy; the consumer agent reads `CBUF` while port `C` is idle, the
codec requester reads `BOUT`. That ports `K` and `B` are idle between steps is log 13; what the agents read at an index outside
the buffer is the model's choice (log 19). -/
def Obligations.OutputsShowTheState : Prop :=
  (∀ (s : State) (x : Port) (r : Response), s.rsp x = some r →
    s.rspValid x = true ∧ s.countOut x = r.count ∧
    (r.status = .ok → s.statusOut x = 0b00#2) ∧ (r.status = .fail → s.statusOut x = 0b01#2) ∧
    (r.status = .decerr → s.statusOut x = 0b10#2) ∧ (r.status = .illegal → s.statusOut x = 0b11#2)) ∧
  (∀ (s : State) (x : Port), s.rsp x = none → s.rspValid x = false) ∧
  (∀ s : State, (s.busy .p = true ↔ s.pInflight ≠ none) ∧ (s.busy .c = true ↔ s.cInflight ≠ none) ∧
    s.busy .k = false ∧ s.busy .b = false) ∧
  (∀ (s : State) (i : Nat), s.busy .c = false → s.agentReadCbuf i = s.readCbuf i) ∧
  (∀ (s : State) (i : Nat), s.agentReadBout i = s.readBout i)
end

