-- ==== Sys2Proof/Laws/Cobs.lean ====
section
/-! SUPPORT. The encoder's loop, with its placeholder bytes, in a form that recurses on the record; the decoder's loop does
not depend on the number of turns it may take. -/

namespace Sys2Proof.Machine

/-- The encoder on the rest of a record, with the data bytes of the open run. -/
def encodeFrom : List Byte → List Byte → List Byte
  | run, [] => runBytes run
  | run, b :: bs =>
    if b = 0#8 then runBytes run ++ encodeFrom [] bs
    else if run.length + 1 = 254 then runBytes (run ++ [b]) ++ encodeFrom [] bs
    else encodeFrom (run ++ [b]) bs

/-- The working values stand for closed runs `pre` and an open run `run`. -/
structure EncodeWork.Holds (e : EncodeWork) (pre run : List Byte) : Prop where
  out : e.out = pre ++ 0#8 :: run
  cp : e.cp = pre.length
  code : e.code = run.length + 1

theorem openRun_holds (out : List Byte) : (openRun out).Holds out [] := ⟨rfl, rfl, rfl⟩

theorem EncodeWork.Holds.closeRun {e : EncodeWork} {pre run : List Byte} (h : e.Holds pre run) :
    e.closeRun = pre ++ runBytes run := by
  simp [EncodeWork.closeRun, h.out, h.cp, h.code, runBytes, List.set_append_right]

/-- A zero closes the run (42_cobs.md R112). -/
theorem encodeByte_zero (e : EncodeWork) : encodeByte e 0#8 = openRun e.closeRun := rfl

/-- The 254th data byte closes the run (42_cobs.md R114). -/
theorem encodeByte_force {e : EncodeWork} {b : Byte} (hb : b ≠ 0#8) (hc : e.code + 1 = 255) :
    encodeByte e b = openRun ({ e with out := e.out ++ [b], code := e.code + 1 } : EncodeWork).closeRun := by
  simp only [encodeByte, if_neg hb, hc, if_true]

/-- Any other byte is copied into the run (42_cobs.md R112). -/
theorem encodeByte_data {e : EncodeWork} {b : Byte} (hb : b ≠ 0#8) (hc : e.code + 1 ≠ 255) :
    encodeByte e b = { e with out := e.out ++ [b], code := e.code + 1 } := by
  simp only [encodeByte, if_neg hb, if_neg hc]

theorem EncodeWork.Holds.data {e : EncodeWork} {pre run : List Byte} (h : e.Holds pre run) (b : Byte) :
    ({ e with out := e.out ++ [b], code := e.code + 1 } : EncodeWork).Holds pre (run ++ [b]) :=
  ⟨by simp [h.out], h.cp, by simp [h.code]⟩

theorem foldl_encodeByte {e : EncodeWork} {pre run bs : List Byte} (h : e.Holds pre run) :
    (bs.foldl encodeByte e).closeRun = pre ++ encodeFrom run bs := by
  induction bs generalizing e pre run with
  | nil => exact h.closeRun
  | cons b bs ih =>
    rw [List.foldl_cons, encodeFrom]
    by_cases hb : b = 0#8
    · rw [if_pos hb, hb, encodeByte_zero, h.closeRun, ih (openRun_holds _), List.append_assoc]
    · rw [if_neg hb]
      by_cases hc : run.length + 1 = 254
      · rw [if_pos hc, encodeByte_force hb (by rw [h.code]; omega), (h.data b).closeRun, ih (openRun_holds _),
          List.append_assoc]
      · rw [if_neg hc, encodeByte_data hb (by rw [h.code]; omega), ih (h.data b)]

/-- The encoder in the recursive form. -/
theorem cobsEncode_eq_encodeFrom (record : List Byte) : cobsEncode record = encodeFrom [] record := by
  rw [cobsEncode, foldl_encodeByte (openRun_holds []), List.nil_append]

/-- As many turns as bytes are enough, and more change nothing. -/
theorem decodeRuns_turns {m n : Nat} {l : List Byte} (hm : l.length ≤ m) (hn : l.length ≤ n) :
    decodeRuns m l = decodeRuns n l := by
  induction m generalizing n l with
  | zero =>
    rw [List.length_eq_zero_iff.1 (Nat.le_zero.1 hm)]
    cases n <;> rfl
  | succ m ih =>
    cases l with
    | nil => cases n <;> rfl
    | cons c rest =>
      cases n with
      | zero => simp at hn
      | succ n =>
        simp only [List.length_cons] at hm hn
        have hd : (rest.drop (c.toNat - 1)).length ≤ rest.length := by simp
        simp only [decodeRuns, ih (l := rest.drop (c.toNat - 1)) (n := n) (by omega) (by omega)]

end Sys2Proof.Machine
end

