-- ==== Sys2Proof/Laws/Memory.lean ====
section
/-! SUPPORT. The laws of one space: a read after a write, the canonical form, the depth and the width of its elements are
kept by every operation. -/

namespace Sys2Proof.Machine

section Cells

variable {α : Type}

theorem lookupCell_insertCell_same (i : Nat) (v : α) (l : List (Nat × α)) :
    lookupCell i (insertCell i v l) = some v := by
  induction l with
  | nil => simp [insertCell, lookupCell]
  | cons c rest ih =>
    obtain ⟨j, w⟩ := c
    by_cases h1 : i < j
    · simp [insertCell, h1, lookupCell]
    · by_cases h2 : i = j
      · simp [insertCell, h2, lookupCell]
      · simp [insertCell, h1, h2, lookupCell, ih]

theorem lookupCell_insertCell_other {i k : Nat} (h : k ≠ i) (v : α) (l : List (Nat × α)) :
    lookupCell k (insertCell i v l) = lookupCell k l := by
  induction l with
  | nil => simp [insertCell, lookupCell, h]
  | cons c rest ih =>
    obtain ⟨j, w⟩ := c
    by_cases h1 : i < j
    · simp [insertCell, h1, lookupCell, h]
    · by_cases h2 : i = j
      · subst h2; simp [insertCell, lookupCell, h]
      · simp [insertCell, h1, h2, lookupCell, ih]

theorem all_insertCell {P : Nat × α → Bool} {i : Nat} {v : α} (hv : P (i, v) = true) {l : List (Nat × α)}
    (h : l.all P = true) : (insertCell i v l).all P = true := by
  induction l with
  | nil => simpa [insertCell] using hv
  | cons c rest ih =>
    obtain ⟨j, w⟩ := c
    simp only [List.all_cons, Bool.and_eq_true] at h
    by_cases h1 : i < j
    · simp [insertCell, h1, hv, h.1, h.2]
    · by_cases h2 : i = j
      · simp [insertCell, h2, h.2, h2 ▸ hv]
      · simp [insertCell, h1, h2, h.1, ih h.2]

theorem rising_insertCell (i : Nat) (v : α) {l : List (Nat × α)} (h : rising l = true) :
    rising (insertCell i v l) = true := by
  induction l with
  | nil => simp [insertCell, rising]
  | cons c rest ih =>
    obtain ⟨j, w⟩ := c
    simp only [rising, Bool.and_eq_true] at h
    by_cases h1 : i < j
    · simp only [insertCell, h1, if_true, rising, List.all_cons, Bool.and_eq_true, decide_eq_true_eq]
      refine ⟨⟨trivial, ?_⟩, h⟩
      refine List.all_eq_true.2 fun c hc => ?_
      have := List.all_eq_true.1 h.1 c hc
      simp only [decide_eq_true_eq] at this ⊢
      omega
    · by_cases h2 : i = j
      · subst h2; simp only [insertCell, lt_irrefl, if_false, if_true, rising, Bool.and_eq_true]; exact h
      · simp only [insertCell, h1, h2, if_false, rising, Bool.and_eq_true]
        exact ⟨all_insertCell (by simp; omega) h.1, ih h.2⟩

theorem lookupCell_of_all {P : Nat × α → Bool} {i : Nat} {v : α} {l : List (Nat × α)} (h : l.all P = true)
    (hl : lookupCell i l = some v) : P (i, v) = true := by
  induction l with
  | nil => simp [lookupCell] at hl
  | cons c rest ih =>
    obtain ⟨j, w⟩ := c
    simp only [List.all_cons, Bool.and_eq_true] at h
    by_cases h2 : i = j
    · subst h2
      simp only [lookupCell, if_true, Option.some.injEq] at hl
      exact hl ▸ h.1
    · simp only [lookupCell, h2, if_false] at hl
      exact ih h.2 hl

end Cells

section Spaces

variable {α : Type} (m : Memory α)

@[simp] theorem Memory.lookup_write_same (i : Nat) (v : α) : (m.write i v).lookup i = some v :=
  lookupCell_insertCell_same i v m.cells

theorem Memory.lookup_write_other {i k : Nat} (h : k ≠ i) (v : α) : (m.write i v).lookup k = m.lookup k :=
  lookupCell_insertCell_other h v m.cells

@[simp] theorem Memory.epoch_write (i : Nat) (v : α) : (m.write i v).epoch = m.epoch := rfl

@[simp] theorem Memory.epoch_writeSpan (i : Nat) (vs : List α) : (m.writeSpan i vs).epoch = m.epoch := by
  induction vs generalizing m i with
  | nil => rfl
  | cons v vs ih => simp [Memory.writeSpan, ih]

/-- A span is read back where it was written, and every other index reads as before. -/
theorem Memory.lookup_writeSpan (i k : Nat) (vs : List α) :
    (m.writeSpan i vs).lookup k = if i ≤ k ∧ k < i + vs.length then vs[k - i]? else m.lookup k := by
  induction vs generalizing m i with
  | nil =>
    rw [if_neg (by simp)]
    rfl
  | cons v vs ih =>
    rw [Memory.writeSpan, ih]
    rcases Nat.lt_trichotomy k i with h | h | h
    · rw [if_neg (by omega), if_neg (by omega), Memory.lookup_write_other m (by omega)]
    · subst h
      rw [if_neg (by omega), if_pos (by simp)]
      simp
    · have hk : k - i = (k - (i + 1)) + 1 := by omega
      by_cases h' : k < i + 1 + vs.length
      · rw [if_pos (by omega), if_pos (by simp; omega), hk, List.getElem?_cons_succ]
      · rw [if_neg (by omega), if_neg (by simp; omega), Memory.lookup_write_other m (by omega)]

@[simp] theorem Memory.lookup_unspecify (i : Nat) : m.unspecify.lookup i = none := rfl

@[simp] theorem Memory.lookup_unwritten (i : Nat) : (Memory.unwritten : Memory α).lookup i = none := rfl

@[simp] theorem Memory.wf_unwritten : (Memory.unwritten : Memory α).wf = true := rfl

@[simp] theorem Memory.wf_unspecify : m.unspecify.wf = true := rfl

theorem Memory.wf_write {m : Memory α} (i : Nat) (v : α) (h : m.wf = true) : (m.write i v).wf = true :=
  rising_insertCell i v h

theorem Memory.wf_writeSpan {m : Memory α} (i : Nat) (vs : List α) (h : m.wf = true) :
    (m.writeSpan i vs).wf = true := by
  induction vs generalizing m i with
  | nil => exact h
  | cons v vs ih => exact ih (i + 1) (Memory.wf_write i v h)

@[simp] theorem Memory.within_unwritten (d : Nat) : (Memory.unwritten : Memory α).within d = true := rfl

@[simp] theorem Memory.within_unspecify (d : Nat) : m.unspecify.within d = true := rfl

theorem Memory.within_write {m : Memory α} {d i : Nat} (v : α) (hi : i < d) (h : m.within d = true) :
    (m.write i v).within d = true :=
  all_insertCell (by simpa using hi) h

theorem Memory.within_writeSpan {m : Memory α} {d i : Nat} (vs : List α) (hi : i + vs.length ≤ d)
    (h : m.within d = true) : (m.writeSpan i vs).within d = true := by
  induction vs generalizing m i with
  | nil => exact h
  | cons v vs ih =>
    simp only [List.length_cons] at hi
    exact ih (by omega) (Memory.within_write v (by omega) h)

theorem Memory.lookup_of_within {m : Memory α} {d i : Nat} {v : α} (h : m.within d = true)
    (hl : m.lookup i = some v) : i < d := by
  simpa using lookupCell_of_all h hl

end Spaces

section Elements

variable (m : Memory Elem)

@[simp] theorem Memory.fits_unwritten (w : Nat) : (Memory.unwritten : Memory Elem).fits w = true := rfl

@[simp] theorem Memory.fits_unspecify (w : Nat) : m.unspecify.fits w = true := rfl

theorem Memory.fits_write {m : Memory Elem} {w : Nat} (i : Nat) {v : Elem} (hv : v < 2 ^ w) (h : m.fits w = true) :
    (m.write i v).fits w = true :=
  all_insertCell (by simpa using hv) h

theorem Memory.lookup_of_fits {m : Memory Elem} {w i : Nat} {v : Elem} (h : m.fits w = true)
    (hl : m.lookup i = some v) : v < 2 ^ w := by
  simpa using lookupCell_of_all h hl

/-- Reading an element gives `w` bits, written or not. -/
theorem Memory.getD_lt {m : Memory Elem} {w i n : Nat} (h : m.fits w = true) : (m.lookup i).getD (n % 2 ^ w) < 2 ^ w := by
  cases hl : m.lookup i with
  | none => exact Nat.mod_lt _ (Nat.two_pow_pos w)
  | some v => exact Memory.lookup_of_fits h hl

end Elements

end Sys2Proof.Machine
end

