-- ==== Sys2Proof/Laws/State.lean ====
section
/-! SUPPORT. One lemma per field per named update of the state, so that no later proof unfolds a record update. -/

namespace Sys2Proof.Machine

/-! ### `freshRdata` -/

@[simp] theorem freshRdata_params (s : State) : (freshRdata s).params = s.params := rfl
@[simp] theorem freshRdata_mem (s : State) : (freshRdata s).mem = s.mem := rfl
@[simp] theorem freshRdata_wr (s : State) : (freshRdata s).wr = s.wr := rfl
@[simp] theorem freshRdata_rd (s : State) : (freshRdata s).rd = s.rd := rfl
@[simp] theorem freshRdata_pbuf (s : State) : (freshRdata s).pbuf = s.pbuf := rfl
@[simp] theorem freshRdata_cbuf (s : State) : (freshRdata s).cbuf = s.cbuf := rfl
@[simp] theorem freshRdata_kbuf (s : State) : (freshRdata s).kbuf = s.kbuf := rfl
@[simp] theorem freshRdata_bin (s : State) : (freshRdata s).bin = s.bin := rfl
@[simp] theorem freshRdata_bout (s : State) : (freshRdata s).bout = s.bout := rfl
@[simp] theorem freshRdata_pInflight (s : State) : (freshRdata s).pInflight = s.pInflight := rfl
@[simp] theorem freshRdata_cInflight (s : State) : (freshRdata s).cInflight = s.cInflight := rfl
@[simp] theorem freshRdata_pRsp (s : State) : (freshRdata s).pRsp = s.pRsp := rfl
@[simp] theorem freshRdata_cRsp (s : State) : (freshRdata s).cRsp = s.cRsp := rfl
@[simp] theorem freshRdata_kRsp (s : State) : (freshRdata s).kRsp = s.kRsp := rfl
@[simp] theorem freshRdata_bRsp (s : State) : (freshRdata s).bRsp = s.bRsp := rfl
@[simp] theorem freshRdata_cRdata (s : State) : (freshRdata s).cRdata = Config.freeRdata s.draws % 2 ^ s.params.width := rfl
@[simp] theorem freshRdata_kCrc (s : State) : (freshRdata s).kCrc = s.kCrc := rfl
@[simp] theorem freshRdata_pWdata (s : State) : (freshRdata s).pWdata = s.pWdata := rfl
@[simp] theorem freshRdata_port (s : State) : (freshRdata s).port = s.port := rfl
@[simp] theorem freshRdata_inputs (s : State) : (freshRdata s).inputs = s.inputs := rfl
@[simp] theorem freshRdata_resetSeen (s : State) : (freshRdata s).resetSeen = s.resetSeen := rfl
@[simp] theorem freshRdata_draws (s : State) : (freshRdata s).draws = s.draws + 1 := rfl

/-! ### `freshCrc` -/

@[simp] theorem freshCrc_params (s : State) : (freshCrc s).params = s.params := rfl
@[simp] theorem freshCrc_mem (s : State) : (freshCrc s).mem = s.mem := rfl
@[simp] theorem freshCrc_wr (s : State) : (freshCrc s).wr = s.wr := rfl
@[simp] theorem freshCrc_rd (s : State) : (freshCrc s).rd = s.rd := rfl
@[simp] theorem freshCrc_pbuf (s : State) : (freshCrc s).pbuf = s.pbuf := rfl
@[simp] theorem freshCrc_cbuf (s : State) : (freshCrc s).cbuf = s.cbuf := rfl
@[simp] theorem freshCrc_kbuf (s : State) : (freshCrc s).kbuf = s.kbuf := rfl
@[simp] theorem freshCrc_bin (s : State) : (freshCrc s).bin = s.bin := rfl
@[simp] theorem freshCrc_bout (s : State) : (freshCrc s).bout = s.bout := rfl
@[simp] theorem freshCrc_pInflight (s : State) : (freshCrc s).pInflight = s.pInflight := rfl
@[simp] theorem freshCrc_cInflight (s : State) : (freshCrc s).cInflight = s.cInflight := rfl
@[simp] theorem freshCrc_pRsp (s : State) : (freshCrc s).pRsp = s.pRsp := rfl
@[simp] theorem freshCrc_cRsp (s : State) : (freshCrc s).cRsp = s.cRsp := rfl
@[simp] theorem freshCrc_kRsp (s : State) : (freshCrc s).kRsp = s.kRsp := rfl
@[simp] theorem freshCrc_bRsp (s : State) : (freshCrc s).bRsp = s.bRsp := rfl
@[simp] theorem freshCrc_cRdata (s : State) : (freshCrc s).cRdata = s.cRdata := rfl
@[simp] theorem freshCrc_kCrc (s : State) : (freshCrc s).kCrc = Config.freeCrc s.draws := rfl
@[simp] theorem freshCrc_pWdata (s : State) : (freshCrc s).pWdata = s.pWdata := rfl
@[simp] theorem freshCrc_port (s : State) : (freshCrc s).port = s.port := rfl
@[simp] theorem freshCrc_inputs (s : State) : (freshCrc s).inputs = s.inputs := rfl
@[simp] theorem freshCrc_resetSeen (s : State) : (freshCrc s).resetSeen = s.resetSeen := rfl
@[simp] theorem freshCrc_draws (s : State) : (freshCrc s).draws = s.draws + 1 := rfl

/-! ### `pushElem` -/

@[simp] theorem pushElem_params (v : Elem) (s : State) : (pushElem v s).params = s.params := rfl
@[simp] theorem pushElem_mem (v : Elem) (s : State) : (pushElem v s).mem = s.mem.write s.wr v := rfl
@[simp] theorem pushElem_wr (v : Elem) (s : State) : (pushElem v s).wr = bump s.params.capacity s.wr := rfl
@[simp] theorem pushElem_rd (v : Elem) (s : State) : (pushElem v s).rd = s.rd := rfl
@[simp] theorem pushElem_pbuf (v : Elem) (s : State) : (pushElem v s).pbuf = s.pbuf := rfl
@[simp] theorem pushElem_cbuf (v : Elem) (s : State) : (pushElem v s).cbuf = s.cbuf := rfl
@[simp] theorem pushElem_kbuf (v : Elem) (s : State) : (pushElem v s).kbuf = s.kbuf := rfl
@[simp] theorem pushElem_bin (v : Elem) (s : State) : (pushElem v s).bin = s.bin := rfl
@[simp] theorem pushElem_bout (v : Elem) (s : State) : (pushElem v s).bout = s.bout := rfl
@[simp] theorem pushElem_pInflight (v : Elem) (s : State) : (pushElem v s).pInflight = s.pInflight := rfl
@[simp] theorem pushElem_cInflight (v : Elem) (s : State) : (pushElem v s).cInflight = s.cInflight := rfl
@[simp] theorem pushElem_pRsp (v : Elem) (s : State) : (pushElem v s).pRsp = s.pRsp := rfl
@[simp] theorem pushElem_cRsp (v : Elem) (s : State) : (pushElem v s).cRsp = s.cRsp := rfl
@[simp] theorem pushElem_kRsp (v : Elem) (s : State) : (pushElem v s).kRsp = s.kRsp := rfl
@[simp] theorem pushElem_bRsp (v : Elem) (s : State) : (pushElem v s).bRsp = s.bRsp := rfl
@[simp] theorem pushElem_cRdata (v : Elem) (s : State) : (pushElem v s).cRdata = s.cRdata := rfl
@[simp] theorem pushElem_kCrc (v : Elem) (s : State) : (pushElem v s).kCrc = s.kCrc := rfl
@[simp] theorem pushElem_pWdata (v : Elem) (s : State) : (pushElem v s).pWdata = s.pWdata := rfl
@[simp] theorem pushElem_port (v : Elem) (s : State) : (pushElem v s).port = s.port := rfl
@[simp] theorem pushElem_inputs (v : Elem) (s : State) : (pushElem v s).inputs = s.inputs := rfl
@[simp] theorem pushElem_resetSeen (v : Elem) (s : State) : (pushElem v s).resetSeen = s.resetSeen := rfl
@[simp] theorem pushElem_draws (v : Elem) (s : State) : (pushElem v s).draws = s.draws := rfl

/-! ### `popElem` -/

@[simp] theorem popElem_params (s : State) : (popElem s).params = s.params := rfl
@[simp] theorem popElem_mem (s : State) : (popElem s).mem = s.mem := rfl
@[simp] theorem popElem_wr (s : State) : (popElem s).wr = s.wr := rfl
@[simp] theorem popElem_rd (s : State) : (popElem s).rd = bump s.params.capacity s.rd := rfl
@[simp] theorem popElem_pbuf (s : State) : (popElem s).pbuf = s.pbuf := rfl
@[simp] theorem popElem_cbuf (s : State) : (popElem s).cbuf = s.cbuf := rfl
@[simp] theorem popElem_kbuf (s : State) : (popElem s).kbuf = s.kbuf := rfl
@[simp] theorem popElem_bin (s : State) : (popElem s).bin = s.bin := rfl
@[simp] theorem popElem_bout (s : State) : (popElem s).bout = s.bout := rfl
@[simp] theorem popElem_pInflight (s : State) : (popElem s).pInflight = s.pInflight := rfl
@[simp] theorem popElem_cInflight (s : State) : (popElem s).cInflight = s.cInflight := rfl
@[simp] theorem popElem_pRsp (s : State) : (popElem s).pRsp = s.pRsp := rfl
@[simp] theorem popElem_cRsp (s : State) : (popElem s).cRsp = s.cRsp := rfl
@[simp] theorem popElem_kRsp (s : State) : (popElem s).kRsp = s.kRsp := rfl
@[simp] theorem popElem_bRsp (s : State) : (popElem s).bRsp = s.bRsp := rfl
@[simp] theorem popElem_cRdata (s : State) : (popElem s).cRdata = s.cRdata := rfl
@[simp] theorem popElem_kCrc (s : State) : (popElem s).kCrc = s.kCrc := rfl
@[simp] theorem popElem_pWdata (s : State) : (popElem s).pWdata = s.pWdata := rfl
@[simp] theorem popElem_port (s : State) : (popElem s).port = s.port := rfl
@[simp] theorem popElem_inputs (s : State) : (popElem s).inputs = s.inputs := rfl
@[simp] theorem popElem_resetSeen (s : State) : (popElem s).resetSeen = s.resetSeen := rfl
@[simp] theorem popElem_draws (s : State) : (popElem s).draws = s.draws := rfl

/-! ### `newStep` -/

@[simp] theorem newStep_params (s : State) : (newStep s).params = s.params := rfl
@[simp] theorem newStep_mem (s : State) : (newStep s).mem = s.mem := rfl
@[simp] theorem newStep_wr (s : State) : (newStep s).wr = s.wr := rfl
@[simp] theorem newStep_rd (s : State) : (newStep s).rd = s.rd := rfl
@[simp] theorem newStep_pbuf (s : State) : (newStep s).pbuf = s.pbuf := rfl
@[simp] theorem newStep_cbuf (s : State) : (newStep s).cbuf = s.cbuf := rfl
@[simp] theorem newStep_kbuf (s : State) : (newStep s).kbuf = s.kbuf := rfl
@[simp] theorem newStep_bin (s : State) : (newStep s).bin = s.bin := rfl
@[simp] theorem newStep_bout (s : State) : (newStep s).bout = s.bout := rfl
@[simp] theorem newStep_pInflight (s : State) : (newStep s).pInflight = s.pInflight := rfl
@[simp] theorem newStep_cInflight (s : State) : (newStep s).cInflight = s.cInflight := rfl
@[simp] theorem newStep_pRsp (s : State) : (newStep s).pRsp = none := rfl
@[simp] theorem newStep_cRsp (s : State) : (newStep s).cRsp = none := rfl
@[simp] theorem newStep_kRsp (s : State) : (newStep s).kRsp = none := rfl
@[simp] theorem newStep_bRsp (s : State) : (newStep s).bRsp = none := rfl
@[simp] theorem newStep_cRdata (s : State) : (newStep s).cRdata = Config.freeRdata s.draws % 2 ^ s.params.width := rfl
@[simp] theorem newStep_kCrc (s : State) : (newStep s).kCrc = Config.freeCrc (s.draws + 1) := rfl
@[simp] theorem newStep_pWdata (s : State) : (newStep s).pWdata = s.pWdata := rfl
@[simp] theorem newStep_port (s : State) : (newStep s).port = s.port := rfl
@[simp] theorem newStep_inputs (s : State) : (newStep s).inputs = s.inputs := rfl
@[simp] theorem newStep_resetSeen (s : State) : (newStep s).resetSeen = s.resetSeen := rfl
@[simp] theorem newStep_draws (s : State) : (newStep s).draws = s.draws + 1 + 1 := rfl

/-! ### `respond` -/

@[simp] theorem respond_params (x : Port) (st : Status) (n : Nat) (s : State) : (respond x st n s).params = s.params := by cases x <;> rfl
@[simp] theorem respond_mem (x : Port) (st : Status) (n : Nat) (s : State) : (respond x st n s).mem = s.mem := by cases x <;> rfl
@[simp] theorem respond_wr (x : Port) (st : Status) (n : Nat) (s : State) : (respond x st n s).wr = s.wr := by cases x <;> rfl
@[simp] theorem respond_rd (x : Port) (st : Status) (n : Nat) (s : State) : (respond x st n s).rd = s.rd := by cases x <;> rfl
@[simp] theorem respond_pbuf (x : Port) (st : Status) (n : Nat) (s : State) : (respond x st n s).pbuf = s.pbuf := by cases x <;> rfl
@[simp] theorem respond_cbuf (x : Port) (st : Status) (n : Nat) (s : State) : (respond x st n s).cbuf = s.cbuf := by cases x <;> rfl
@[simp] theorem respond_kbuf (x : Port) (st : Status) (n : Nat) (s : State) : (respond x st n s).kbuf = s.kbuf := by cases x <;> rfl
@[simp] theorem respond_bin (x : Port) (st : Status) (n : Nat) (s : State) : (respond x st n s).bin = s.bin := by cases x <;> rfl
@[simp] theorem respond_bout (x : Port) (st : Status) (n : Nat) (s : State) : (respond x st n s).bout = s.bout := by cases x <;> rfl
@[simp] theorem respond_pInflight (x : Port) (st : Status) (n : Nat) (s : State) : (respond x st n s).pInflight = s.pInflight := by cases x <;> rfl
@[simp] theorem respond_cInflight (x : Port) (st : Status) (n : Nat) (s : State) : (respond x st n s).cInflight = s.cInflight := by cases x <;> rfl
@[simp] theorem respond_pWdata (x : Port) (st : Status) (n : Nat) (s : State) : (respond x st n s).pWdata = s.pWdata := by cases x <;> rfl
@[simp] theorem respond_port (x : Port) (st : Status) (n : Nat) (s : State) : (respond x st n s).port = s.port := by cases x <;> rfl
@[simp] theorem respond_inputs (x : Port) (st : Status) (n : Nat) (s : State) : (respond x st n s).inputs = s.inputs := by cases x <;> rfl
@[simp] theorem respond_resetSeen (x : Port) (st : Status) (n : Nat) (s : State) : (respond x st n s).resetSeen = s.resetSeen := by cases x <;> rfl

/-! ### `issued` -/

@[simp] theorem issued_params (x : Port) (v : Elem) (rest : List Input) (s : State) : (issued x v rest s).params = s.params := by cases x <;> rfl
@[simp] theorem issued_mem (x : Port) (v : Elem) (rest : List Input) (s : State) : (issued x v rest s).mem = s.mem := by cases x <;> rfl
@[simp] theorem issued_wr (x : Port) (v : Elem) (rest : List Input) (s : State) : (issued x v rest s).wr = s.wr := by cases x <;> rfl
@[simp] theorem issued_rd (x : Port) (v : Elem) (rest : List Input) (s : State) : (issued x v rest s).rd = s.rd := by cases x <;> rfl
@[simp] theorem issued_pbuf (x : Port) (v : Elem) (rest : List Input) (s : State) : (issued x v rest s).pbuf = s.pbuf := by cases x <;> rfl
@[simp] theorem issued_cbuf (x : Port) (v : Elem) (rest : List Input) (s : State) : (issued x v rest s).cbuf = s.cbuf := by cases x <;> rfl
@[simp] theorem issued_kbuf (x : Port) (v : Elem) (rest : List Input) (s : State) : (issued x v rest s).kbuf = s.kbuf := by cases x <;> rfl
@[simp] theorem issued_bin (x : Port) (v : Elem) (rest : List Input) (s : State) : (issued x v rest s).bin = s.bin := by cases x <;> rfl
@[simp] theorem issued_bout (x : Port) (v : Elem) (rest : List Input) (s : State) : (issued x v rest s).bout = s.bout := by cases x <;> rfl
@[simp] theorem issued_pInflight (x : Port) (v : Elem) (rest : List Input) (s : State) : (issued x v rest s).pInflight = s.pInflight := by cases x <;> rfl
@[simp] theorem issued_cInflight (x : Port) (v : Elem) (rest : List Input) (s : State) : (issued x v rest s).cInflight = s.cInflight := by cases x <;> rfl
@[simp] theorem issued_pRsp (x : Port) (v : Elem) (rest : List Input) (s : State) : (issued x v rest s).pRsp = none := by cases x <;> rfl
@[simp] theorem issued_cRsp (x : Port) (v : Elem) (rest : List Input) (s : State) : (issued x v rest s).cRsp = none := by cases x <;> rfl
@[simp] theorem issued_kRsp (x : Port) (v : Elem) (rest : List Input) (s : State) : (issued x v rest s).kRsp = none := by cases x <;> rfl
@[simp] theorem issued_bRsp (x : Port) (v : Elem) (rest : List Input) (s : State) : (issued x v rest s).bRsp = none := by cases x <;> rfl
@[simp] theorem issued_cRdata (x : Port) (v : Elem) (rest : List Input) (s : State) : (issued x v rest s).cRdata = Config.freeRdata s.draws % 2 ^ s.params.width := by cases x <;> rfl
@[simp] theorem issued_kCrc (x : Port) (v : Elem) (rest : List Input) (s : State) : (issued x v rest s).kCrc = Config.freeCrc (s.draws + 1) := by cases x <;> rfl
@[simp] theorem issued_port (x : Port) (v : Elem) (rest : List Input) (s : State) : (issued x v rest s).port = x := by cases x <;> rfl
@[simp] theorem issued_inputs (x : Port) (v : Elem) (rest : List Input) (s : State) : (issued x v rest s).inputs = rest := by cases x <;> rfl
@[simp] theorem issued_resetSeen (x : Port) (v : Elem) (rest : List Input) (s : State) : (issued x v rest s).resetSeen = s.resetSeen := by cases x <;> rfl
@[simp] theorem issued_draws (x : Port) (v : Elem) (rest : List Input) (s : State) : (issued x v rest s).draws = s.draws + 1 + 1 := by cases x <;> rfl

/-! ### `setInputs` -/

@[simp] theorem setInputs_params (rest : List Input) (s : State) : (setInputs rest s).params = s.params := rfl
@[simp] theorem setInputs_mem (rest : List Input) (s : State) : (setInputs rest s).mem = s.mem := rfl
@[simp] theorem setInputs_wr (rest : List Input) (s : State) : (setInputs rest s).wr = s.wr := rfl
@[simp] theorem setInputs_rd (rest : List Input) (s : State) : (setInputs rest s).rd = s.rd := rfl
@[simp] theorem setInputs_pbuf (rest : List Input) (s : State) : (setInputs rest s).pbuf = s.pbuf := rfl
@[simp] theorem setInputs_cbuf (rest : List Input) (s : State) : (setInputs rest s).cbuf = s.cbuf := rfl
@[simp] theorem setInputs_kbuf (rest : List Input) (s : State) : (setInputs rest s).kbuf = s.kbuf := rfl
@[simp] theorem setInputs_bin (rest : List Input) (s : State) : (setInputs rest s).bin = s.bin := rfl
@[simp] theorem setInputs_bout (rest : List Input) (s : State) : (setInputs rest s).bout = s.bout := rfl
@[simp] theorem setInputs_pInflight (rest : List Input) (s : State) : (setInputs rest s).pInflight = s.pInflight := rfl
@[simp] theorem setInputs_cInflight (rest : List Input) (s : State) : (setInputs rest s).cInflight = s.cInflight := rfl
@[simp] theorem setInputs_pRsp (rest : List Input) (s : State) : (setInputs rest s).pRsp = s.pRsp := rfl
@[simp] theorem setInputs_cRsp (rest : List Input) (s : State) : (setInputs rest s).cRsp = s.cRsp := rfl
@[simp] theorem setInputs_kRsp (rest : List Input) (s : State) : (setInputs rest s).kRsp = s.kRsp := rfl
@[simp] theorem setInputs_bRsp (rest : List Input) (s : State) : (setInputs rest s).bRsp = s.bRsp := rfl
@[simp] theorem setInputs_cRdata (rest : List Input) (s : State) : (setInputs rest s).cRdata = s.cRdata := rfl
@[simp] theorem setInputs_kCrc (rest : List Input) (s : State) : (setInputs rest s).kCrc = s.kCrc := rfl
@[simp] theorem setInputs_pWdata (rest : List Input) (s : State) : (setInputs rest s).pWdata = s.pWdata := rfl
@[simp] theorem setInputs_port (rest : List Input) (s : State) : (setInputs rest s).port = s.port := rfl
@[simp] theorem setInputs_inputs (rest : List Input) (s : State) : (setInputs rest s).inputs = rest := rfl
@[simp] theorem setInputs_resetSeen (rest : List Input) (s : State) : (setInputs rest s).resetSeen = s.resetSeen := rfl
@[simp] theorem setInputs_draws (rest : List Input) (s : State) : (setInputs rest s).draws = s.draws := rfl

/-! ### `setPInflight` -/

@[simp] theorem setPInflight_params (r : Option PushInflight) (s : State) : (setPInflight r s).params = s.params := rfl
@[simp] theorem setPInflight_mem (r : Option PushInflight) (s : State) : (setPInflight r s).mem = s.mem := rfl
@[simp] theorem setPInflight_wr (r : Option PushInflight) (s : State) : (setPInflight r s).wr = s.wr := rfl
@[simp] theorem setPInflight_rd (r : Option PushInflight) (s : State) : (setPInflight r s).rd = s.rd := rfl
@[simp] theorem setPInflight_pbuf (r : Option PushInflight) (s : State) : (setPInflight r s).pbuf = s.pbuf := rfl
@[simp] theorem setPInflight_cbuf (r : Option PushInflight) (s : State) : (setPInflight r s).cbuf = s.cbuf := rfl
@[simp] theorem setPInflight_kbuf (r : Option PushInflight) (s : State) : (setPInflight r s).kbuf = s.kbuf := rfl
@[simp] theorem setPInflight_bin (r : Option PushInflight) (s : State) : (setPInflight r s).bin = s.bin := rfl
@[simp] theorem setPInflight_bout (r : Option PushInflight) (s : State) : (setPInflight r s).bout = s.bout := rfl
@[simp] theorem setPInflight_pInflight (r : Option PushInflight) (s : State) : (setPInflight r s).pInflight = r := rfl
@[simp] theorem setPInflight_cInflight (r : Option PushInflight) (s : State) : (setPInflight r s).cInflight = s.cInflight := rfl
@[simp] theorem setPInflight_pRsp (r : Option PushInflight) (s : State) : (setPInflight r s).pRsp = s.pRsp := rfl
@[simp] theorem setPInflight_cRsp (r : Option PushInflight) (s : State) : (setPInflight r s).cRsp = s.cRsp := rfl
@[simp] theorem setPInflight_kRsp (r : Option PushInflight) (s : State) : (setPInflight r s).kRsp = s.kRsp := rfl
@[simp] theorem setPInflight_bRsp (r : Option PushInflight) (s : State) : (setPInflight r s).bRsp = s.bRsp := rfl
@[simp] theorem setPInflight_cRdata (r : Option PushInflight) (s : State) : (setPInflight r s).cRdata = s.cRdata := rfl
@[simp] theorem setPInflight_kCrc (r : Option PushInflight) (s : State) : (setPInflight r s).kCrc = s.kCrc := rfl
@[simp] theorem setPInflight_pWdata (r : Option PushInflight) (s : State) : (setPInflight r s).pWdata = s.pWdata := rfl
@[simp] theorem setPInflight_port (r : Option PushInflight) (s : State) : (setPInflight r s).port = s.port := rfl
@[simp] theorem setPInflight_inputs (r : Option PushInflight) (s : State) : (setPInflight r s).inputs = s.inputs := rfl
@[simp] theorem setPInflight_resetSeen (r : Option PushInflight) (s : State) : (setPInflight r s).resetSeen = s.resetSeen := rfl
@[simp] theorem setPInflight_draws (r : Option PushInflight) (s : State) : (setPInflight r s).draws = s.draws := rfl

/-! ### `setCInflight` -/

@[simp] theorem setCInflight_params (r : Option PopInflight) (s : State) : (setCInflight r s).params = s.params := rfl
@[simp] theorem setCInflight_mem (r : Option PopInflight) (s : State) : (setCInflight r s).mem = s.mem := rfl
@[simp] theorem setCInflight_wr (r : Option PopInflight) (s : State) : (setCInflight r s).wr = s.wr := rfl
@[simp] theorem setCInflight_rd (r : Option PopInflight) (s : State) : (setCInflight r s).rd = s.rd := rfl
@[simp] theorem setCInflight_pbuf (r : Option PopInflight) (s : State) : (setCInflight r s).pbuf = s.pbuf := rfl
@[simp] theorem setCInflight_cbuf (r : Option PopInflight) (s : State) : (setCInflight r s).cbuf = s.cbuf := rfl
@[simp] theorem setCInflight_kbuf (r : Option PopInflight) (s : State) : (setCInflight r s).kbuf = s.kbuf := rfl
@[simp] theorem setCInflight_bin (r : Option PopInflight) (s : State) : (setCInflight r s).bin = s.bin := rfl
@[simp] theorem setCInflight_bout (r : Option PopInflight) (s : State) : (setCInflight r s).bout = s.bout := rfl
@[simp] theorem setCInflight_pInflight (r : Option PopInflight) (s : State) : (setCInflight r s).pInflight = s.pInflight := rfl
@[simp] theorem setCInflight_cInflight (r : Option PopInflight) (s : State) : (setCInflight r s).cInflight = r := rfl
@[simp] theorem setCInflight_pRsp (r : Option PopInflight) (s : State) : (setCInflight r s).pRsp = s.pRsp := rfl
@[simp] theorem setCInflight_cRsp (r : Option PopInflight) (s : State) : (setCInflight r s).cRsp = s.cRsp := rfl
@[simp] theorem setCInflight_kRsp (r : Option PopInflight) (s : State) : (setCInflight r s).kRsp = s.kRsp := rfl
@[simp] theorem setCInflight_bRsp (r : Option PopInflight) (s : State) : (setCInflight r s).bRsp = s.bRsp := rfl
@[simp] theorem setCInflight_cRdata (r : Option PopInflight) (s : State) : (setCInflight r s).cRdata = s.cRdata := rfl
@[simp] theorem setCInflight_kCrc (r : Option PopInflight) (s : State) : (setCInflight r s).kCrc = s.kCrc := rfl
@[simp] theorem setCInflight_pWdata (r : Option PopInflight) (s : State) : (setCInflight r s).pWdata = s.pWdata := rfl
@[simp] theorem setCInflight_port (r : Option PopInflight) (s : State) : (setCInflight r s).port = s.port := rfl
@[simp] theorem setCInflight_inputs (r : Option PopInflight) (s : State) : (setCInflight r s).inputs = s.inputs := rfl
@[simp] theorem setCInflight_resetSeen (r : Option PopInflight) (s : State) : (setCInflight r s).resetSeen = s.resetSeen := rfl
@[simp] theorem setCInflight_draws (r : Option PopInflight) (s : State) : (setCInflight r s).draws = s.draws := rfl

/-! ### `setPbuf` -/

@[simp] theorem setPbuf_params (m : Memory Elem) (s : State) : (setPbuf m s).params = s.params := rfl
@[simp] theorem setPbuf_mem (m : Memory Elem) (s : State) : (setPbuf m s).mem = s.mem := rfl
@[simp] theorem setPbuf_wr (m : Memory Elem) (s : State) : (setPbuf m s).wr = s.wr := rfl
@[simp] theorem setPbuf_rd (m : Memory Elem) (s : State) : (setPbuf m s).rd = s.rd := rfl
@[simp] theorem setPbuf_pbuf (m : Memory Elem) (s : State) : (setPbuf m s).pbuf = m := rfl
@[simp] theorem setPbuf_cbuf (m : Memory Elem) (s : State) : (setPbuf m s).cbuf = s.cbuf := rfl
@[simp] theorem setPbuf_kbuf (m : Memory Elem) (s : State) : (setPbuf m s).kbuf = s.kbuf := rfl
@[simp] theorem setPbuf_bin (m : Memory Elem) (s : State) : (setPbuf m s).bin = s.bin := rfl
@[simp] theorem setPbuf_bout (m : Memory Elem) (s : State) : (setPbuf m s).bout = s.bout := rfl
@[simp] theorem setPbuf_pInflight (m : Memory Elem) (s : State) : (setPbuf m s).pInflight = s.pInflight := rfl
@[simp] theorem setPbuf_cInflight (m : Memory Elem) (s : State) : (setPbuf m s).cInflight = s.cInflight := rfl
@[simp] theorem setPbuf_pRsp (m : Memory Elem) (s : State) : (setPbuf m s).pRsp = s.pRsp := rfl
@[simp] theorem setPbuf_cRsp (m : Memory Elem) (s : State) : (setPbuf m s).cRsp = s.cRsp := rfl
@[simp] theorem setPbuf_kRsp (m : Memory Elem) (s : State) : (setPbuf m s).kRsp = s.kRsp := rfl
@[simp] theorem setPbuf_bRsp (m : Memory Elem) (s : State) : (setPbuf m s).bRsp = s.bRsp := rfl
@[simp] theorem setPbuf_cRdata (m : Memory Elem) (s : State) : (setPbuf m s).cRdata = s.cRdata := rfl
@[simp] theorem setPbuf_kCrc (m : Memory Elem) (s : State) : (setPbuf m s).kCrc = s.kCrc := rfl
@[simp] theorem setPbuf_pWdata (m : Memory Elem) (s : State) : (setPbuf m s).pWdata = s.pWdata := rfl
@[simp] theorem setPbuf_port (m : Memory Elem) (s : State) : (setPbuf m s).port = s.port := rfl
@[simp] theorem setPbuf_inputs (m : Memory Elem) (s : State) : (setPbuf m s).inputs = s.inputs := rfl
@[simp] theorem setPbuf_resetSeen (m : Memory Elem) (s : State) : (setPbuf m s).resetSeen = s.resetSeen := rfl
@[simp] theorem setPbuf_draws (m : Memory Elem) (s : State) : (setPbuf m s).draws = s.draws := rfl

/-! ### `setCbuf` -/

@[simp] theorem setCbuf_params (m : Memory Elem) (s : State) : (setCbuf m s).params = s.params := rfl
@[simp] theorem setCbuf_mem (m : Memory Elem) (s : State) : (setCbuf m s).mem = s.mem := rfl
@[simp] theorem setCbuf_wr (m : Memory Elem) (s : State) : (setCbuf m s).wr = s.wr := rfl
@[simp] theorem setCbuf_rd (m : Memory Elem) (s : State) : (setCbuf m s).rd = s.rd := rfl
@[simp] theorem setCbuf_pbuf (m : Memory Elem) (s : State) : (setCbuf m s).pbuf = s.pbuf := rfl
@[simp] theorem setCbuf_cbuf (m : Memory Elem) (s : State) : (setCbuf m s).cbuf = m := rfl
@[simp] theorem setCbuf_kbuf (m : Memory Elem) (s : State) : (setCbuf m s).kbuf = s.kbuf := rfl
@[simp] theorem setCbuf_bin (m : Memory Elem) (s : State) : (setCbuf m s).bin = s.bin := rfl
@[simp] theorem setCbuf_bout (m : Memory Elem) (s : State) : (setCbuf m s).bout = s.bout := rfl
@[simp] theorem setCbuf_pInflight (m : Memory Elem) (s : State) : (setCbuf m s).pInflight = s.pInflight := rfl
@[simp] theorem setCbuf_cInflight (m : Memory Elem) (s : State) : (setCbuf m s).cInflight = s.cInflight := rfl
@[simp] theorem setCbuf_pRsp (m : Memory Elem) (s : State) : (setCbuf m s).pRsp = s.pRsp := rfl
@[simp] theorem setCbuf_cRsp (m : Memory Elem) (s : State) : (setCbuf m s).cRsp = s.cRsp := rfl
@[simp] theorem setCbuf_kRsp (m : Memory Elem) (s : State) : (setCbuf m s).kRsp = s.kRsp := rfl
@[simp] theorem setCbuf_bRsp (m : Memory Elem) (s : State) : (setCbuf m s).bRsp = s.bRsp := rfl
@[simp] theorem setCbuf_cRdata (m : Memory Elem) (s : State) : (setCbuf m s).cRdata = s.cRdata := rfl
@[simp] theorem setCbuf_kCrc (m : Memory Elem) (s : State) : (setCbuf m s).kCrc = s.kCrc := rfl
@[simp] theorem setCbuf_pWdata (m : Memory Elem) (s : State) : (setCbuf m s).pWdata = s.pWdata := rfl
@[simp] theorem setCbuf_port (m : Memory Elem) (s : State) : (setCbuf m s).port = s.port := rfl
@[simp] theorem setCbuf_inputs (m : Memory Elem) (s : State) : (setCbuf m s).inputs = s.inputs := rfl
@[simp] theorem setCbuf_resetSeen (m : Memory Elem) (s : State) : (setCbuf m s).resetSeen = s.resetSeen := rfl
@[simp] theorem setCbuf_draws (m : Memory Elem) (s : State) : (setCbuf m s).draws = s.draws := rfl

/-! ### `setKbuf` -/

@[simp] theorem setKbuf_params (m : Memory Byte) (s : State) : (setKbuf m s).params = s.params := rfl
@[simp] theorem setKbuf_mem (m : Memory Byte) (s : State) : (setKbuf m s).mem = s.mem := rfl
@[simp] theorem setKbuf_wr (m : Memory Byte) (s : State) : (setKbuf m s).wr = s.wr := rfl
@[simp] theorem setKbuf_rd (m : Memory Byte) (s : State) : (setKbuf m s).rd = s.rd := rfl
@[simp] theorem setKbuf_pbuf (m : Memory Byte) (s : State) : (setKbuf m s).pbuf = s.pbuf := rfl
@[simp] theorem setKbuf_cbuf (m : Memory Byte) (s : State) : (setKbuf m s).cbuf = s.cbuf := rfl
@[simp] theorem setKbuf_kbuf (m : Memory Byte) (s : State) : (setKbuf m s).kbuf = m := rfl
@[simp] theorem setKbuf_bin (m : Memory Byte) (s : State) : (setKbuf m s).bin = s.bin := rfl
@[simp] theorem setKbuf_bout (m : Memory Byte) (s : State) : (setKbuf m s).bout = s.bout := rfl
@[simp] theorem setKbuf_pInflight (m : Memory Byte) (s : State) : (setKbuf m s).pInflight = s.pInflight := rfl
@[simp] theorem setKbuf_cInflight (m : Memory Byte) (s : State) : (setKbuf m s).cInflight = s.cInflight := rfl
@[simp] theorem setKbuf_pRsp (m : Memory Byte) (s : State) : (setKbuf m s).pRsp = s.pRsp := rfl
@[simp] theorem setKbuf_cRsp (m : Memory Byte) (s : State) : (setKbuf m s).cRsp = s.cRsp := rfl
@[simp] theorem setKbuf_kRsp (m : Memory Byte) (s : State) : (setKbuf m s).kRsp = s.kRsp := rfl
@[simp] theorem setKbuf_bRsp (m : Memory Byte) (s : State) : (setKbuf m s).bRsp = s.bRsp := rfl
@[simp] theorem setKbuf_cRdata (m : Memory Byte) (s : State) : (setKbuf m s).cRdata = s.cRdata := rfl
@[simp] theorem setKbuf_kCrc (m : Memory Byte) (s : State) : (setKbuf m s).kCrc = s.kCrc := rfl
@[simp] theorem setKbuf_pWdata (m : Memory Byte) (s : State) : (setKbuf m s).pWdata = s.pWdata := rfl
@[simp] theorem setKbuf_port (m : Memory Byte) (s : State) : (setKbuf m s).port = s.port := rfl
@[simp] theorem setKbuf_inputs (m : Memory Byte) (s : State) : (setKbuf m s).inputs = s.inputs := rfl
@[simp] theorem setKbuf_resetSeen (m : Memory Byte) (s : State) : (setKbuf m s).resetSeen = s.resetSeen := rfl
@[simp] theorem setKbuf_draws (m : Memory Byte) (s : State) : (setKbuf m s).draws = s.draws := rfl

/-! ### `setBin` -/

@[simp] theorem setBin_params (m : Memory Byte) (s : State) : (setBin m s).params = s.params := rfl
@[simp] theorem setBin_mem (m : Memory Byte) (s : State) : (setBin m s).mem = s.mem := rfl
@[simp] theorem setBin_wr (m : Memory Byte) (s : State) : (setBin m s).wr = s.wr := rfl
@[simp] theorem setBin_rd (m : Memory Byte) (s : State) : (setBin m s).rd = s.rd := rfl
@[simp] theorem setBin_pbuf (m : Memory Byte) (s : State) : (setBin m s).pbuf = s.pbuf := rfl
@[simp] theorem setBin_cbuf (m : Memory Byte) (s : State) : (setBin m s).cbuf = s.cbuf := rfl
@[simp] theorem setBin_kbuf (m : Memory Byte) (s : State) : (setBin m s).kbuf = s.kbuf := rfl
@[simp] theorem setBin_bin (m : Memory Byte) (s : State) : (setBin m s).bin = m := rfl
@[simp] theorem setBin_bout (m : Memory Byte) (s : State) : (setBin m s).bout = s.bout := rfl
@[simp] theorem setBin_pInflight (m : Memory Byte) (s : State) : (setBin m s).pInflight = s.pInflight := rfl
@[simp] theorem setBin_cInflight (m : Memory Byte) (s : State) : (setBin m s).cInflight = s.cInflight := rfl
@[simp] theorem setBin_pRsp (m : Memory Byte) (s : State) : (setBin m s).pRsp = s.pRsp := rfl
@[simp] theorem setBin_cRsp (m : Memory Byte) (s : State) : (setBin m s).cRsp = s.cRsp := rfl
@[simp] theorem setBin_kRsp (m : Memory Byte) (s : State) : (setBin m s).kRsp = s.kRsp := rfl
@[simp] theorem setBin_bRsp (m : Memory Byte) (s : State) : (setBin m s).bRsp = s.bRsp := rfl
@[simp] theorem setBin_cRdata (m : Memory Byte) (s : State) : (setBin m s).cRdata = s.cRdata := rfl
@[simp] theorem setBin_kCrc (m : Memory Byte) (s : State) : (setBin m s).kCrc = s.kCrc := rfl
@[simp] theorem setBin_pWdata (m : Memory Byte) (s : State) : (setBin m s).pWdata = s.pWdata := rfl
@[simp] theorem setBin_port (m : Memory Byte) (s : State) : (setBin m s).port = s.port := rfl
@[simp] theorem setBin_inputs (m : Memory Byte) (s : State) : (setBin m s).inputs = s.inputs := rfl
@[simp] theorem setBin_resetSeen (m : Memory Byte) (s : State) : (setBin m s).resetSeen = s.resetSeen := rfl
@[simp] theorem setBin_draws (m : Memory Byte) (s : State) : (setBin m s).draws = s.draws := rfl

/-! ### `setBout` -/

@[simp] theorem setBout_params (m : Memory Byte) (s : State) : (setBout m s).params = s.params := rfl
@[simp] theorem setBout_mem (m : Memory Byte) (s : State) : (setBout m s).mem = s.mem := rfl
@[simp] theorem setBout_wr (m : Memory Byte) (s : State) : (setBout m s).wr = s.wr := rfl
@[simp] theorem setBout_rd (m : Memory Byte) (s : State) : (setBout m s).rd = s.rd := rfl
@[simp] theorem setBout_pbuf (m : Memory Byte) (s : State) : (setBout m s).pbuf = s.pbuf := rfl
@[simp] theorem setBout_cbuf (m : Memory Byte) (s : State) : (setBout m s).cbuf = s.cbuf := rfl
@[simp] theorem setBout_kbuf (m : Memory Byte) (s : State) : (setBout m s).kbuf = s.kbuf := rfl
@[simp] theorem setBout_bin (m : Memory Byte) (s : State) : (setBout m s).bin = s.bin := rfl
@[simp] theorem setBout_bout (m : Memory Byte) (s : State) : (setBout m s).bout = m := rfl
@[simp] theorem setBout_pInflight (m : Memory Byte) (s : State) : (setBout m s).pInflight = s.pInflight := rfl
@[simp] theorem setBout_cInflight (m : Memory Byte) (s : State) : (setBout m s).cInflight = s.cInflight := rfl
@[simp] theorem setBout_pRsp (m : Memory Byte) (s : State) : (setBout m s).pRsp = s.pRsp := rfl
@[simp] theorem setBout_cRsp (m : Memory Byte) (s : State) : (setBout m s).cRsp = s.cRsp := rfl
@[simp] theorem setBout_kRsp (m : Memory Byte) (s : State) : (setBout m s).kRsp = s.kRsp := rfl
@[simp] theorem setBout_bRsp (m : Memory Byte) (s : State) : (setBout m s).bRsp = s.bRsp := rfl
@[simp] theorem setBout_cRdata (m : Memory Byte) (s : State) : (setBout m s).cRdata = s.cRdata := rfl
@[simp] theorem setBout_kCrc (m : Memory Byte) (s : State) : (setBout m s).kCrc = s.kCrc := rfl
@[simp] theorem setBout_pWdata (m : Memory Byte) (s : State) : (setBout m s).pWdata = s.pWdata := rfl
@[simp] theorem setBout_port (m : Memory Byte) (s : State) : (setBout m s).port = s.port := rfl
@[simp] theorem setBout_inputs (m : Memory Byte) (s : State) : (setBout m s).inputs = s.inputs := rfl
@[simp] theorem setBout_resetSeen (m : Memory Byte) (s : State) : (setBout m s).resetSeen = s.resetSeen := rfl
@[simp] theorem setBout_draws (m : Memory Byte) (s : State) : (setBout m s).draws = s.draws := rfl

/-! ### `setRdata` -/

@[simp] theorem setRdata_params (v : Elem) (s : State) : (setRdata v s).params = s.params := rfl
@[simp] theorem setRdata_mem (v : Elem) (s : State) : (setRdata v s).mem = s.mem := rfl
@[simp] theorem setRdata_wr (v : Elem) (s : State) : (setRdata v s).wr = s.wr := rfl
@[simp] theorem setRdata_rd (v : Elem) (s : State) : (setRdata v s).rd = s.rd := rfl
@[simp] theorem setRdata_pbuf (v : Elem) (s : State) : (setRdata v s).pbuf = s.pbuf := rfl
@[simp] theorem setRdata_cbuf (v : Elem) (s : State) : (setRdata v s).cbuf = s.cbuf := rfl
@[simp] theorem setRdata_kbuf (v : Elem) (s : State) : (setRdata v s).kbuf = s.kbuf := rfl
@[simp] theorem setRdata_bin (v : Elem) (s : State) : (setRdata v s).bin = s.bin := rfl
@[simp] theorem setRdata_bout (v : Elem) (s : State) : (setRdata v s).bout = s.bout := rfl
@[simp] theorem setRdata_pInflight (v : Elem) (s : State) : (setRdata v s).pInflight = s.pInflight := rfl
@[simp] theorem setRdata_cInflight (v : Elem) (s : State) : (setRdata v s).cInflight = s.cInflight := rfl
@[simp] theorem setRdata_pRsp (v : Elem) (s : State) : (setRdata v s).pRsp = s.pRsp := rfl
@[simp] theorem setRdata_cRsp (v : Elem) (s : State) : (setRdata v s).cRsp = s.cRsp := rfl
@[simp] theorem setRdata_kRsp (v : Elem) (s : State) : (setRdata v s).kRsp = s.kRsp := rfl
@[simp] theorem setRdata_bRsp (v : Elem) (s : State) : (setRdata v s).bRsp = s.bRsp := rfl
@[simp] theorem setRdata_cRdata (v : Elem) (s : State) : (setRdata v s).cRdata = v := rfl
@[simp] theorem setRdata_kCrc (v : Elem) (s : State) : (setRdata v s).kCrc = s.kCrc := rfl
@[simp] theorem setRdata_pWdata (v : Elem) (s : State) : (setRdata v s).pWdata = s.pWdata := rfl
@[simp] theorem setRdata_port (v : Elem) (s : State) : (setRdata v s).port = s.port := rfl
@[simp] theorem setRdata_inputs (v : Elem) (s : State) : (setRdata v s).inputs = s.inputs := rfl
@[simp] theorem setRdata_resetSeen (v : Elem) (s : State) : (setRdata v s).resetSeen = s.resetSeen := rfl
@[simp] theorem setRdata_draws (v : Elem) (s : State) : (setRdata v s).draws = s.draws := rfl

/-! ### `setCrc` -/

@[simp] theorem setCrc_params (c : Crc) (s : State) : (setCrc c s).params = s.params := rfl
@[simp] theorem setCrc_mem (c : Crc) (s : State) : (setCrc c s).mem = s.mem := rfl
@[simp] theorem setCrc_wr (c : Crc) (s : State) : (setCrc c s).wr = s.wr := rfl
@[simp] theorem setCrc_rd (c : Crc) (s : State) : (setCrc c s).rd = s.rd := rfl
@[simp] theorem setCrc_pbuf (c : Crc) (s : State) : (setCrc c s).pbuf = s.pbuf := rfl
@[simp] theorem setCrc_cbuf (c : Crc) (s : State) : (setCrc c s).cbuf = s.cbuf := rfl
@[simp] theorem setCrc_kbuf (c : Crc) (s : State) : (setCrc c s).kbuf = s.kbuf := rfl
@[simp] theorem setCrc_bin (c : Crc) (s : State) : (setCrc c s).bin = s.bin := rfl
@[simp] theorem setCrc_bout (c : Crc) (s : State) : (setCrc c s).bout = s.bout := rfl
@[simp] theorem setCrc_pInflight (c : Crc) (s : State) : (setCrc c s).pInflight = s.pInflight := rfl
@[simp] theorem setCrc_cInflight (c : Crc) (s : State) : (setCrc c s).cInflight = s.cInflight := rfl
@[simp] theorem setCrc_pRsp (c : Crc) (s : State) : (setCrc c s).pRsp = s.pRsp := rfl
@[simp] theorem setCrc_cRsp (c : Crc) (s : State) : (setCrc c s).cRsp = s.cRsp := rfl
@[simp] theorem setCrc_kRsp (c : Crc) (s : State) : (setCrc c s).kRsp = s.kRsp := rfl
@[simp] theorem setCrc_bRsp (c : Crc) (s : State) : (setCrc c s).bRsp = s.bRsp := rfl
@[simp] theorem setCrc_cRdata (c : Crc) (s : State) : (setCrc c s).cRdata = s.cRdata := rfl
@[simp] theorem setCrc_kCrc (c : Crc) (s : State) : (setCrc c s).kCrc = c := rfl
@[simp] theorem setCrc_pWdata (c : Crc) (s : State) : (setCrc c s).pWdata = s.pWdata := rfl
@[simp] theorem setCrc_port (c : Crc) (s : State) : (setCrc c s).port = s.port := rfl
@[simp] theorem setCrc_inputs (c : Crc) (s : State) : (setCrc c s).inputs = s.inputs := rfl
@[simp] theorem setCrc_resetSeen (c : Crc) (s : State) : (setCrc c s).resetSeen = s.resetSeen := rfl
@[simp] theorem setCrc_draws (c : Crc) (s : State) : (setCrc c s).draws = s.draws := rfl

/-! ### `discardAll` -/

@[simp] theorem discardAll_params (s : State) : (discardAll s).params = s.params := rfl
@[simp] theorem discardAll_mem (s : State) : (discardAll s).mem = s.mem := rfl
@[simp] theorem discardAll_wr (s : State) : (discardAll s).wr = s.wr := rfl
@[simp] theorem discardAll_rd (s : State) : (discardAll s).rd = s.wr := rfl
@[simp] theorem discardAll_pbuf (s : State) : (discardAll s).pbuf = s.pbuf := rfl
@[simp] theorem discardAll_cbuf (s : State) : (discardAll s).cbuf = s.cbuf := rfl
@[simp] theorem discardAll_kbuf (s : State) : (discardAll s).kbuf = s.kbuf := rfl
@[simp] theorem discardAll_bin (s : State) : (discardAll s).bin = s.bin := rfl
@[simp] theorem discardAll_bout (s : State) : (discardAll s).bout = s.bout := rfl
@[simp] theorem discardAll_pInflight (s : State) : (discardAll s).pInflight = s.pInflight := rfl
@[simp] theorem discardAll_cInflight (s : State) : (discardAll s).cInflight = s.cInflight := rfl
@[simp] theorem discardAll_pRsp (s : State) : (discardAll s).pRsp = s.pRsp := rfl
@[simp] theorem discardAll_cRsp (s : State) : (discardAll s).cRsp = s.cRsp := rfl
@[simp] theorem discardAll_kRsp (s : State) : (discardAll s).kRsp = s.kRsp := rfl
@[simp] theorem discardAll_bRsp (s : State) : (discardAll s).bRsp = s.bRsp := rfl
@[simp] theorem discardAll_cRdata (s : State) : (discardAll s).cRdata = s.cRdata := rfl
@[simp] theorem discardAll_kCrc (s : State) : (discardAll s).kCrc = s.kCrc := rfl
@[simp] theorem discardAll_pWdata (s : State) : (discardAll s).pWdata = s.pWdata := rfl
@[simp] theorem discardAll_port (s : State) : (discardAll s).port = s.port := rfl
@[simp] theorem discardAll_inputs (s : State) : (discardAll s).inputs = s.inputs := rfl
@[simp] theorem discardAll_resetSeen (s : State) : (discardAll s).resetSeen = s.resetSeen := rfl
@[simp] theorem discardAll_draws (s : State) : (discardAll s).draws = s.draws := rfl

/-! ### `resetStep` -/

@[simp] theorem resetStep_params (s : State) : (resetStep s).params = s.params := rfl
@[simp] theorem resetStep_mem (s : State) : (resetStep s).mem = s.mem.unspecify := rfl
@[simp] theorem resetStep_wr (s : State) : (resetStep s).wr = 0 := rfl
@[simp] theorem resetStep_rd (s : State) : (resetStep s).rd = 0 := rfl
@[simp] theorem resetStep_pbuf (s : State) : (resetStep s).pbuf = s.pbuf.unspecify := rfl
@[simp] theorem resetStep_cbuf (s : State) : (resetStep s).cbuf = s.cbuf.unspecify := rfl
@[simp] theorem resetStep_kbuf (s : State) : (resetStep s).kbuf = s.kbuf.unspecify := rfl
@[simp] theorem resetStep_bin (s : State) : (resetStep s).bin = s.bin.unspecify := rfl
@[simp] theorem resetStep_bout (s : State) : (resetStep s).bout = s.bout.unspecify := rfl
@[simp] theorem resetStep_pInflight (s : State) : (resetStep s).pInflight = none := rfl
@[simp] theorem resetStep_cInflight (s : State) : (resetStep s).cInflight = none := rfl
@[simp] theorem resetStep_pRsp (s : State) : (resetStep s).pRsp = none := rfl
@[simp] theorem resetStep_cRsp (s : State) : (resetStep s).cRsp = none := rfl
@[simp] theorem resetStep_kRsp (s : State) : (resetStep s).kRsp = none := rfl
@[simp] theorem resetStep_bRsp (s : State) : (resetStep s).bRsp = none := rfl
@[simp] theorem resetStep_cRdata (s : State) : (resetStep s).cRdata = Config.freeRdata s.draws % 2 ^ s.params.width := rfl
@[simp] theorem resetStep_kCrc (s : State) : (resetStep s).kCrc = Config.freeCrc (s.draws + 1) := rfl
@[simp] theorem resetStep_pWdata (s : State) : (resetStep s).pWdata = s.pWdata := rfl
@[simp] theorem resetStep_port (s : State) : (resetStep s).port = s.port := rfl
@[simp] theorem resetStep_inputs (s : State) : (resetStep s).inputs = s.inputs := rfl
@[simp] theorem resetStep_resetSeen (s : State) : (resetStep s).resetSeen = true := rfl
@[simp] theorem resetStep_draws (s : State) : (resetStep s).draws = s.draws + 1 + 1 := rfl

/-! ### the reads and counts depend on few fields -/

theorem occ_congr {s t : State} (hw : t.wr = s.wr) (hr : t.rd = s.rd) (hp : t.params = s.params) : t.occ = s.occ := by
  simp only [State.occ, hw, hr, hp]

theorem free_congr {s t : State} (hw : t.wr = s.wr) (hr : t.rd = s.rd) (hp : t.params = s.params) : t.free = s.free := by
  simp only [State.free, occ_congr hw hr hp, hp]

theorem full_congr {s t : State} (hw : t.wr = s.wr) (hr : t.rd = s.rd) (hp : t.params = s.params) : t.full = s.full := by
  simp only [State.full, hw, hr, hp]

theorem empty_congr {s t : State} (hw : t.wr = s.wr) (hr : t.rd = s.rd) : t.empty = s.empty := by
  simp only [State.empty, hw, hr]

theorem readMem_congr {s t : State} (hm : t.mem = s.mem) (hp : t.params = s.params) (i : Nat) :
    t.readMem i = s.readMem i := by simp only [State.readMem, hm, hp]

theorem readPbuf_congr {s t : State} (hm : t.pbuf = s.pbuf) (hp : t.params = s.params) (i : Nat) :
    t.readPbuf i = s.readPbuf i := by simp only [State.readPbuf, hm, hp]

theorem readCbuf_congr {s t : State} (hm : t.cbuf = s.cbuf) (hp : t.params = s.params) (i : Nat) :
    t.readCbuf i = s.readCbuf i := by simp only [State.readCbuf, hm, hp]

theorem readKbuf_congr {s t : State} (hm : t.kbuf = s.kbuf) (i : Nat) : t.readKbuf i = s.readKbuf i := by
  simp only [State.readKbuf, hm]

theorem readBin_congr {s t : State} (hm : t.bin = s.bin) (i : Nat) : t.readBin i = s.readBin i := by
  simp only [State.readBin, hm]

theorem readBout_congr {s t : State} (hm : t.bout = s.bout) (i : Nat) : t.readBout i = s.readBout i := by
  simp only [State.readBout, hm]

theorem contents_congr {s t : State} (hm : t.mem = s.mem) (hw : t.wr = s.wr) (hr : t.rd = s.rd)
    (hp : t.params = s.params) : t.contents = s.contents := by
  simp only [State.contents, occ_congr hw hr hp, hr, hp, readMem_congr hm hp]

end Sys2Proof.Machine
end

