-- ==== Sys2Proof/Laws/Queue.lean ====
section
/-! SUPPORT. The arithmetic of the two indices, and what the two element steps do to the counts and the contents. -/

namespace Sys2Proof.Machine

theorem bump_eq_ite {cap x : Nat} (h : x < cap) : bump cap x = if x + 1 = cap then 0 else x + 1 := by
  unfold bump
  split
  · next h' => rw [h', Nat.mod_self]
  · exact Nat.mod_eq_of_lt (by omega)

theorem bump_lt {cap x : Nat} (h : 0 < cap) : bump cap x < cap := Nat.mod_lt _ h

/-- 10_state.md R25, written without `mod`. -/
theorem occ_eq_ite {s : State} (hr : s.rd < s.params.capacity) (hw : s.wr < s.params.capacity) :
    s.occ = if s.rd ≤ s.wr then s.wr - s.rd else s.wr + s.params.capacity - s.rd := by
  unfold State.occ
  split
  · next h => rw [Int.emod_eq_of_lt (by omega) (by omega)]; omega
  · next h =>
    rw [← Int.add_emod_right, Int.emod_eq_of_lt (by omega) (by omega)]; omega

theorem occ_lt {s : State} (h : 0 < s.params.capacity) : s.occ < s.params.capacity := by
  have := Int.emod_lt_of_pos ((s.wr : Int) - s.rd) (b := s.params.capacity) (by omega)
  have := Int.emod_nonneg ((s.wr : Int) - s.rd) (b := (s.params.capacity : Int)) (by omega)
  unfold State.occ
  omega

theorem full_iff {s : State} (hr : s.rd < s.params.capacity) (hw : s.wr < s.params.capacity) :
    s.full = true ↔ s.occ + 1 = s.params.capacity := by
  rw [State.full, decide_eq_true_eq, bump_eq_ite hw, occ_eq_ite hr hw]
  split <;> split <;> omega

theorem empty_iff {s : State} (hr : s.rd < s.params.capacity) (hw : s.wr < s.params.capacity) :
    s.empty = true ↔ s.occ = 0 := by
  rw [State.empty, decide_eq_true_eq, occ_eq_ite hr hw]
  split <;> omega

theorem occ_pushElem {s : State} (v : Elem) (hr : s.rd < s.params.capacity) (hw : s.wr < s.params.capacity)
    (hf : s.occ + 1 < s.params.capacity) : (pushElem v s).occ = s.occ + 1 := by
  have hw' : (pushElem v s).wr < (pushElem v s).params.capacity := bump_lt (by omega)
  rw [occ_eq_ite (by simpa using hr) hw']
  rw [occ_eq_ite hr hw] at *
  simp only [pushElem_rd, pushElem_wr, pushElem_params, bump_eq_ite hw]
  split at hf <;> split <;> split <;> omega

theorem occ_popElem {s : State} (hr : s.rd < s.params.capacity) (hw : s.wr < s.params.capacity)
    (he : 0 < s.occ) : (popElem s).occ + 1 = s.occ := by
  have hr' : (popElem s).rd < (popElem s).params.capacity := bump_lt (by omega)
  rw [occ_eq_ite hr' (by simpa using hw)]
  rw [occ_eq_ite hr hw] at *
  simp only [popElem_rd, popElem_wr, popElem_params, bump_eq_ite hr]
  split at he <;> split <;> split <;> omega

/-- The slots of the window, from the oldest: none is the one written next. -/
theorem window_ne_wr {s : State} (hr : s.rd < s.params.capacity) (hw : s.wr < s.params.capacity) {k : Nat}
    (hk : k < s.occ) : (s.rd + k) % s.params.capacity ≠ s.wr := by
  have ho := occ_lt (s := s) (by omega)
  rw [occ_eq_ite hr hw] at hk ho
  by_cases h : s.rd + k < s.params.capacity
  · rw [Nat.mod_eq_of_lt h]
    split at hk <;> omega
  · rw [Nat.mod_eq_sub_mod (by omega), Nat.mod_eq_of_lt (by omega)]
    split at hk <;> omega

theorem window_end {s : State} (hr : s.rd < s.params.capacity) (hw : s.wr < s.params.capacity) :
    (s.rd + s.occ) % s.params.capacity = s.wr := by
  rw [occ_eq_ite hr hw]
  split
  · rw [show s.rd + (s.wr - s.rd) = s.wr by omega, Nat.mod_eq_of_lt hw]
  · rw [show s.rd + (s.wr + s.params.capacity - s.rd) = s.wr + s.params.capacity by omega, Nat.add_mod_right,
      Nat.mod_eq_of_lt hw]

theorem window_next {cap rd k : Nat} : (bump cap rd + k) % cap = (rd + (k + 1)) % cap := by
  unfold bump
  rw [Nat.mod_add_mod]
  congr 1
  omega

@[simp] theorem length_contents (s : State) : s.contents.length = s.occ := by simp [State.contents]

theorem readMem_pushElem_same (v : Elem) (s : State) : (pushElem v s).readMem s.wr = v := by
  simp [State.readMem]

theorem readMem_pushElem_other (v : Elem) {s : State} {a : Nat} (h : a ≠ s.wr) :
    (pushElem v s).readMem a = s.readMem a := by
  simp [State.readMem, Memory.lookup_write_other _ h]

/-- The success arm of PUSH appends to the contents (10_state.md R28). -/
theorem contents_pushElem {s : State} (v : Elem) (hr : s.rd < s.params.capacity) (hw : s.wr < s.params.capacity)
    (hf : s.occ + 1 < s.params.capacity) : (pushElem v s).contents = s.contents ++ [v] := by
  rw [State.contents, occ_pushElem v hr hw hf, List.range_succ, List.map_append]
  congr 1
  · refine List.map_congr_left fun k hk => ?_
    exact readMem_pushElem_other v (window_ne_wr hr hw (List.mem_range.1 hk))
  · simp only [List.map_cons, List.map_nil, pushElem_rd, pushElem_params, window_end hr hw, readMem_pushElem_same]

/-- The success arm of POP takes the oldest element off the contents (10_state.md R28). -/
theorem contents_popElem {s : State} (hr : s.rd < s.params.capacity) (hw : s.wr < s.params.capacity)
    (he : 0 < s.occ) : s.contents = s.readMem s.rd :: (popElem s).contents := by
  rw [State.contents, State.contents, ← occ_popElem hr hw he, List.range_succ_eq_map, List.map_cons, List.map_map,
    Nat.add_zero, Nat.mod_eq_of_lt hr]
  congr 1
  refine List.map_congr_left fun k _ => ?_
  simp only [Function.comp, popElem_rd, popElem_params, window_next, Nat.succ_eq_add_one]
  exact (readMem_congr (popElem_mem s) (popElem_params s) _).symm

theorem contents_of_occ_zero {s : State} (h : s.occ = 0) : s.contents = [] := by simp [State.contents, h]

theorem occ_of_rd_eq_wr {s : State} (h : s.rd = s.wr) : s.occ = 0 := by simp [State.occ, h]

end Sys2Proof.Machine
end

