-- ==== Sys2Proof/Laws/Ops.lean ====
section
/-! SUPPORT. What the shared operations can do: `respond`, `newStep` and `carryOut`, said once for the reads, the counts, the
responses and the lasting state. -/

namespace Sys2Proof.Machine

/-! ### `respond` ends a command and touches no lasting state (30_encoding.md R67) -/

@[simp] theorem respond_readMem (x : Port) (st : Status) (n : Nat) (s : State) (i : Nat) :
    (respond x st n s).readMem i = s.readMem i := readMem_congr (by simp) (by simp) i
@[simp] theorem respond_readPbuf (x : Port) (st : Status) (n : Nat) (s : State) (i : Nat) :
    (respond x st n s).readPbuf i = s.readPbuf i := readPbuf_congr (by simp) (by simp) i
@[simp] theorem respond_readCbuf (x : Port) (st : Status) (n : Nat) (s : State) (i : Nat) :
    (respond x st n s).readCbuf i = s.readCbuf i := readCbuf_congr (by simp) (by simp) i
@[simp] theorem respond_readKbuf (x : Port) (st : Status) (n : Nat) (s : State) (i : Nat) :
    (respond x st n s).readKbuf i = s.readKbuf i := readKbuf_congr (by simp) i
@[simp] theorem respond_readBin (x : Port) (st : Status) (n : Nat) (s : State) (i : Nat) :
    (respond x st n s).readBin i = s.readBin i := readBin_congr (by simp) i
@[simp] theorem respond_readBout (x : Port) (st : Status) (n : Nat) (s : State) (i : Nat) :
    (respond x st n s).readBout i = s.readBout i := readBout_congr (by simp) i
@[simp] theorem respond_occ (x : Port) (st : Status) (n : Nat) (s : State) : (respond x st n s).occ = s.occ :=
  occ_congr (by simp) (by simp) (by simp)
@[simp] theorem respond_free (x : Port) (st : Status) (n : Nat) (s : State) : (respond x st n s).free = s.free :=
  free_congr (by simp) (by simp) (by simp)
@[simp] theorem respond_full (x : Port) (st : Status) (n : Nat) (s : State) : (respond x st n s).full = s.full :=
  full_congr (by simp) (by simp) (by simp)
@[simp] theorem respond_empty (x : Port) (st : Status) (n : Nat) (s : State) : (respond x st n s).empty = s.empty :=
  empty_congr (by simp) (by simp)
@[simp] theorem respond_contents (x : Port) (st : Status) (n : Nat) (s : State) : (respond x st n s).contents = s.contents :=
  contents_congr (by simp) (by simp) (by simp) (by simp)

@[simp] theorem respond_lasting (x : Port) (st : Status) (n : Nat) (s : State) :
    (respond x st n s).lasting = s.lasting := by cases x <;> rfl

@[simp] theorem respond_rsp_same (x : Port) (st : Status) (n : Nat) (s : State) :
    (respond x st n s).rsp x = some ⟨st, BitVec.ofNat 16 n⟩ := by cases x <;> rfl

theorem respond_rsp_other {x y : Port} (h : y ≠ x) (st : Status) (n : Nat) (s : State) :
    (respond x st n s).rsp y = s.rsp y := by cases x <;> cases y <;> first | rfl | exact absurd rfl h

theorem respond_cRdata_other {x : Port} (h : x ≠ .c) (st : Status) (n : Nat) (s : State) :
    (respond x st n s).cRdata = s.cRdata := by cases x <;> first | rfl | exact absurd rfl h

theorem respond_kCrc_other {x : Port} (h : x ≠ .k) (st : Status) (n : Nat) (s : State) :
    (respond x st n s).kCrc = s.kCrc := by cases x <;> first | rfl | exact absurd rfl h

@[simp] theorem respond_c_cRdata (st : Status) (n : Nat) (s : State) :
    (respond .c st n s).cRdata = Config.freeRdata s.draws % 2 ^ s.params.width := rfl

@[simp] theorem respond_k_kCrc (st : Status) (n : Nat) (s : State) :
    (respond .k st n s).kCrc = Config.freeCrc s.draws := rfl

/-- A response leaves everything outside its own port as it was. -/
theorem respond_frame (x : Port) (st : Status) (n : Nat) (s : State) :
    Frame x nowhere nowhere nowhere s (respond x st n s) where
  params := by simp
  mem := by simp
  pbuf := by simp
  cbuf := by simp
  kbuf := by simp
  bin := by simp
  bout := by simp
  others := fun _ hy => respond_rsp_other hy st n s
  rdata := fun hx => respond_cRdata_other hx st n s
  crc := fun hx => respond_kCrc_other hx st n s
  pWdata := by simp
  port := by simp
  inputs := by simp
  resetSeen := by simp

/-- The frame with other stored elements before it: what a command stored, then its response. -/
theorem Frame.respond {x : Port} {memAt cbufAt boutAt : Nat → Prop} {s t : State}
    (h : Frame x memAt cbufAt boutAt s t) (st : Status) (n : Nat) :
    Frame x memAt cbufAt boutAt s (Machine.respond x st n t) where
  params := by simp [h.params]
  mem := fun a ha => by simp [h.mem a ha]
  pbuf := fun a => by simp [h.pbuf a]
  cbuf := fun a ha => by simp [h.cbuf a ha]
  kbuf := fun a => by simp [h.kbuf a]
  bin := fun a => by simp [h.bin a]
  bout := fun a ha => by simp [h.bout a ha]
  others := fun y hy => by rw [respond_rsp_other hy, h.others y hy]
  rdata := fun hx => by rw [respond_cRdata_other hx, h.rdata hx]
  crc := fun hx => by rw [respond_kCrc_other hx, h.crc hx]
  pWdata := by simp [h.pWdata]
  port := by simp [h.port]
  inputs := by simp [h.inputs]
  resetSeen := by simp [h.resetSeen]

/-! ### `newStep` takes the responses back and touches no lasting state -/

@[simp] theorem newStep_readMem (s : State) (i : Nat) : (newStep s).readMem i = s.readMem i := rfl
@[simp] theorem newStep_readPbuf (s : State) (i : Nat) : (newStep s).readPbuf i = s.readPbuf i := rfl
@[simp] theorem newStep_readCbuf (s : State) (i : Nat) : (newStep s).readCbuf i = s.readCbuf i := rfl
@[simp] theorem newStep_readKbuf (s : State) (i : Nat) : (newStep s).readKbuf i = s.readKbuf i := rfl
@[simp] theorem newStep_readBin (s : State) (i : Nat) : (newStep s).readBin i = s.readBin i := rfl
@[simp] theorem newStep_readBout (s : State) (i : Nat) : (newStep s).readBout i = s.readBout i := rfl
@[simp] theorem newStep_occ (s : State) : (newStep s).occ = s.occ := rfl
@[simp] theorem newStep_free (s : State) : (newStep s).free = s.free := rfl
@[simp] theorem newStep_full (s : State) : (newStep s).full = s.full := rfl
@[simp] theorem newStep_empty (s : State) : (newStep s).empty = s.empty := rfl
@[simp] theorem newStep_contents (s : State) : (newStep s).contents = s.contents := rfl
@[simp] theorem newStep_lasting (s : State) : (newStep s).lasting = s.lasting := rfl
@[simp] theorem newStep_rsp (s : State) (x : Port) : (newStep s).rsp x = none := by cases x <;> rfl
@[simp] theorem newStep_busy (s : State) (x : Port) : (newStep s).busy x = s.busy x := by cases x <;> rfl

@[simp] theorem issued_readMem (x : Port) (v : Elem) (rest : List Input) (s : State) (i : Nat) :
    (issued x v rest s).readMem i = s.readMem i := by cases x <;> rfl
@[simp] theorem issued_readPbuf (x : Port) (v : Elem) (rest : List Input) (s : State) (i : Nat) :
    (issued x v rest s).readPbuf i = s.readPbuf i := by cases x <;> rfl
@[simp] theorem issued_readCbuf (x : Port) (v : Elem) (rest : List Input) (s : State) (i : Nat) :
    (issued x v rest s).readCbuf i = s.readCbuf i := by cases x <;> rfl
@[simp] theorem issued_readKbuf (x : Port) (v : Elem) (rest : List Input) (s : State) (i : Nat) :
    (issued x v rest s).readKbuf i = s.readKbuf i := by cases x <;> rfl
@[simp] theorem issued_readBin (x : Port) (v : Elem) (rest : List Input) (s : State) (i : Nat) :
    (issued x v rest s).readBin i = s.readBin i := by cases x <;> rfl
@[simp] theorem issued_readBout (x : Port) (v : Elem) (rest : List Input) (s : State) (i : Nat) :
    (issued x v rest s).readBout i = s.readBout i := by cases x <;> rfl
@[simp] theorem issued_occ (x : Port) (v : Elem) (rest : List Input) (s : State) :
    (issued x v rest s).occ = s.occ := by cases x <;> rfl
@[simp] theorem issued_free (x : Port) (v : Elem) (rest : List Input) (s : State) :
    (issued x v rest s).free = s.free := by cases x <;> rfl
@[simp] theorem issued_full (x : Port) (v : Elem) (rest : List Input) (s : State) :
    (issued x v rest s).full = s.full := by cases x <;> rfl
@[simp] theorem issued_empty (x : Port) (v : Elem) (rest : List Input) (s : State) :
    (issued x v rest s).empty = s.empty := by cases x <;> rfl
@[simp] theorem issued_contents (x : Port) (v : Elem) (rest : List Input) (s : State) :
    (issued x v rest s).contents = s.contents := by cases x <;> rfl
@[simp] theorem issued_lasting (x : Port) (v : Elem) (rest : List Input) (s : State) :
    (issued x v rest s).lasting = s.lasting := by cases x <;> rfl
/-! ### the updates of one field -/

@[simp] theorem setInputs_readMem (rest : List Input) (s : State) (i : Nat) : (setInputs rest s).readMem i = s.readMem i := rfl
@[simp] theorem setInputs_readPbuf (rest : List Input) (s : State) (i : Nat) : (setInputs rest s).readPbuf i = s.readPbuf i := rfl
@[simp] theorem setInputs_readCbuf (rest : List Input) (s : State) (i : Nat) : (setInputs rest s).readCbuf i = s.readCbuf i := rfl
@[simp] theorem setInputs_readKbuf (rest : List Input) (s : State) (i : Nat) : (setInputs rest s).readKbuf i = s.readKbuf i := rfl
@[simp] theorem setInputs_readBin (rest : List Input) (s : State) (i : Nat) : (setInputs rest s).readBin i = s.readBin i := rfl
@[simp] theorem setInputs_readBout (rest : List Input) (s : State) (i : Nat) : (setInputs rest s).readBout i = s.readBout i := rfl
@[simp] theorem setInputs_occ (rest : List Input) (s : State) : (setInputs rest s).occ = s.occ := rfl
@[simp] theorem setInputs_free (rest : List Input) (s : State) : (setInputs rest s).free = s.free := rfl
@[simp] theorem setInputs_full (rest : List Input) (s : State) : (setInputs rest s).full = s.full := rfl
@[simp] theorem setInputs_empty (rest : List Input) (s : State) : (setInputs rest s).empty = s.empty := rfl
@[simp] theorem setInputs_contents (rest : List Input) (s : State) : (setInputs rest s).contents = s.contents := rfl
@[simp] theorem setInputs_rsp (rest : List Input) (s : State) (x : Port) : (setInputs rest s).rsp x = s.rsp x := by cases x <;> rfl
@[simp] theorem setPInflight_readMem (r : Option PushInflight) (s : State) (i : Nat) : (setPInflight r s).readMem i = s.readMem i := rfl
@[simp] theorem setPInflight_readPbuf (r : Option PushInflight) (s : State) (i : Nat) : (setPInflight r s).readPbuf i = s.readPbuf i := rfl
@[simp] theorem setPInflight_readCbuf (r : Option PushInflight) (s : State) (i : Nat) : (setPInflight r s).readCbuf i = s.readCbuf i := rfl
@[simp] theorem setPInflight_readKbuf (r : Option PushInflight) (s : State) (i : Nat) : (setPInflight r s).readKbuf i = s.readKbuf i := rfl
@[simp] theorem setPInflight_readBin (r : Option PushInflight) (s : State) (i : Nat) : (setPInflight r s).readBin i = s.readBin i := rfl
@[simp] theorem setPInflight_readBout (r : Option PushInflight) (s : State) (i : Nat) : (setPInflight r s).readBout i = s.readBout i := rfl
@[simp] theorem setPInflight_occ (r : Option PushInflight) (s : State) : (setPInflight r s).occ = s.occ := rfl
@[simp] theorem setPInflight_free (r : Option PushInflight) (s : State) : (setPInflight r s).free = s.free := rfl
@[simp] theorem setPInflight_full (r : Option PushInflight) (s : State) : (setPInflight r s).full = s.full := rfl
@[simp] theorem setPInflight_empty (r : Option PushInflight) (s : State) : (setPInflight r s).empty = s.empty := rfl
@[simp] theorem setPInflight_contents (r : Option PushInflight) (s : State) : (setPInflight r s).contents = s.contents := rfl
@[simp] theorem setPInflight_rsp (r : Option PushInflight) (s : State) (x : Port) : (setPInflight r s).rsp x = s.rsp x := by cases x <;> rfl
@[simp] theorem setCInflight_readMem (r : Option PopInflight) (s : State) (i : Nat) : (setCInflight r s).readMem i = s.readMem i := rfl
@[simp] theorem setCInflight_readPbuf (r : Option PopInflight) (s : State) (i : Nat) : (setCInflight r s).readPbuf i = s.readPbuf i := rfl
@[simp] theorem setCInflight_readCbuf (r : Option PopInflight) (s : State) (i : Nat) : (setCInflight r s).readCbuf i = s.readCbuf i := rfl
@[simp] theorem setCInflight_readKbuf (r : Option PopInflight) (s : State) (i : Nat) : (setCInflight r s).readKbuf i = s.readKbuf i := rfl
@[simp] theorem setCInflight_readBin (r : Option PopInflight) (s : State) (i : Nat) : (setCInflight r s).readBin i = s.readBin i := rfl
@[simp] theorem setCInflight_readBout (r : Option PopInflight) (s : State) (i : Nat) : (setCInflight r s).readBout i = s.readBout i := rfl
@[simp] theorem setCInflight_occ (r : Option PopInflight) (s : State) : (setCInflight r s).occ = s.occ := rfl
@[simp] theorem setCInflight_free (r : Option PopInflight) (s : State) : (setCInflight r s).free = s.free := rfl
@[simp] theorem setCInflight_full (r : Option PopInflight) (s : State) : (setCInflight r s).full = s.full := rfl
@[simp] theorem setCInflight_empty (r : Option PopInflight) (s : State) : (setCInflight r s).empty = s.empty := rfl
@[simp] theorem setCInflight_contents (r : Option PopInflight) (s : State) : (setCInflight r s).contents = s.contents := rfl
@[simp] theorem setCInflight_rsp (r : Option PopInflight) (s : State) (x : Port) : (setCInflight r s).rsp x = s.rsp x := by cases x <;> rfl
@[simp] theorem setPbuf_readMem (m : Memory Elem) (s : State) (i : Nat) : (setPbuf m s).readMem i = s.readMem i := rfl
@[simp] theorem setPbuf_readCbuf (m : Memory Elem) (s : State) (i : Nat) : (setPbuf m s).readCbuf i = s.readCbuf i := rfl
@[simp] theorem setPbuf_readKbuf (m : Memory Elem) (s : State) (i : Nat) : (setPbuf m s).readKbuf i = s.readKbuf i := rfl
@[simp] theorem setPbuf_readBin (m : Memory Elem) (s : State) (i : Nat) : (setPbuf m s).readBin i = s.readBin i := rfl
@[simp] theorem setPbuf_readBout (m : Memory Elem) (s : State) (i : Nat) : (setPbuf m s).readBout i = s.readBout i := rfl
@[simp] theorem setPbuf_occ (m : Memory Elem) (s : State) : (setPbuf m s).occ = s.occ := rfl
@[simp] theorem setPbuf_free (m : Memory Elem) (s : State) : (setPbuf m s).free = s.free := rfl
@[simp] theorem setPbuf_full (m : Memory Elem) (s : State) : (setPbuf m s).full = s.full := rfl
@[simp] theorem setPbuf_empty (m : Memory Elem) (s : State) : (setPbuf m s).empty = s.empty := rfl
@[simp] theorem setPbuf_contents (m : Memory Elem) (s : State) : (setPbuf m s).contents = s.contents := rfl
@[simp] theorem setPbuf_rsp (m : Memory Elem) (s : State) (x : Port) : (setPbuf m s).rsp x = s.rsp x := by cases x <;> rfl
@[simp] theorem setCbuf_readMem (m : Memory Elem) (s : State) (i : Nat) : (setCbuf m s).readMem i = s.readMem i := rfl
@[simp] theorem setCbuf_readPbuf (m : Memory Elem) (s : State) (i : Nat) : (setCbuf m s).readPbuf i = s.readPbuf i := rfl
@[simp] theorem setCbuf_readKbuf (m : Memory Elem) (s : State) (i : Nat) : (setCbuf m s).readKbuf i = s.readKbuf i := rfl
@[simp] theorem setCbuf_readBin (m : Memory Elem) (s : State) (i : Nat) : (setCbuf m s).readBin i = s.readBin i := rfl
@[simp] theorem setCbuf_readBout (m : Memory Elem) (s : State) (i : Nat) : (setCbuf m s).readBout i = s.readBout i := rfl
@[simp] theorem setCbuf_occ (m : Memory Elem) (s : State) : (setCbuf m s).occ = s.occ := rfl
@[simp] theorem setCbuf_free (m : Memory Elem) (s : State) : (setCbuf m s).free = s.free := rfl
@[simp] theorem setCbuf_full (m : Memory Elem) (s : State) : (setCbuf m s).full = s.full := rfl
@[simp] theorem setCbuf_empty (m : Memory Elem) (s : State) : (setCbuf m s).empty = s.empty := rfl
@[simp] theorem setCbuf_contents (m : Memory Elem) (s : State) : (setCbuf m s).contents = s.contents := rfl
@[simp] theorem setCbuf_rsp (m : Memory Elem) (s : State) (x : Port) : (setCbuf m s).rsp x = s.rsp x := by cases x <;> rfl
@[simp] theorem setKbuf_readMem (m : Memory Byte) (s : State) (i : Nat) : (setKbuf m s).readMem i = s.readMem i := rfl
@[simp] theorem setKbuf_readPbuf (m : Memory Byte) (s : State) (i : Nat) : (setKbuf m s).readPbuf i = s.readPbuf i := rfl
@[simp] theorem setKbuf_readCbuf (m : Memory Byte) (s : State) (i : Nat) : (setKbuf m s).readCbuf i = s.readCbuf i := rfl
@[simp] theorem setKbuf_readBin (m : Memory Byte) (s : State) (i : Nat) : (setKbuf m s).readBin i = s.readBin i := rfl
@[simp] theorem setKbuf_readBout (m : Memory Byte) (s : State) (i : Nat) : (setKbuf m s).readBout i = s.readBout i := rfl
@[simp] theorem setKbuf_occ (m : Memory Byte) (s : State) : (setKbuf m s).occ = s.occ := rfl
@[simp] theorem setKbuf_free (m : Memory Byte) (s : State) : (setKbuf m s).free = s.free := rfl
@[simp] theorem setKbuf_full (m : Memory Byte) (s : State) : (setKbuf m s).full = s.full := rfl
@[simp] theorem setKbuf_empty (m : Memory Byte) (s : State) : (setKbuf m s).empty = s.empty := rfl
@[simp] theorem setKbuf_contents (m : Memory Byte) (s : State) : (setKbuf m s).contents = s.contents := rfl
@[simp] theorem setKbuf_rsp (m : Memory Byte) (s : State) (x : Port) : (setKbuf m s).rsp x = s.rsp x := by cases x <;> rfl
@[simp] theorem setBin_readMem (m : Memory Byte) (s : State) (i : Nat) : (setBin m s).readMem i = s.readMem i := rfl
@[simp] theorem setBin_readPbuf (m : Memory Byte) (s : State) (i : Nat) : (setBin m s).readPbuf i = s.readPbuf i := rfl
@[simp] theorem setBin_readCbuf (m : Memory Byte) (s : State) (i : Nat) : (setBin m s).readCbuf i = s.readCbuf i := rfl
@[simp] theorem setBin_readKbuf (m : Memory Byte) (s : State) (i : Nat) : (setBin m s).readKbuf i = s.readKbuf i := rfl
@[simp] theorem setBin_readBout (m : Memory Byte) (s : State) (i : Nat) : (setBin m s).readBout i = s.readBout i := rfl
@[simp] theorem setBin_occ (m : Memory Byte) (s : State) : (setBin m s).occ = s.occ := rfl
@[simp] theorem setBin_free (m : Memory Byte) (s : State) : (setBin m s).free = s.free := rfl
@[simp] theorem setBin_full (m : Memory Byte) (s : State) : (setBin m s).full = s.full := rfl
@[simp] theorem setBin_empty (m : Memory Byte) (s : State) : (setBin m s).empty = s.empty := rfl
@[simp] theorem setBin_contents (m : Memory Byte) (s : State) : (setBin m s).contents = s.contents := rfl
@[simp] theorem setBin_rsp (m : Memory Byte) (s : State) (x : Port) : (setBin m s).rsp x = s.rsp x := by cases x <;> rfl
@[simp] theorem setBout_readMem (m : Memory Byte) (s : State) (i : Nat) : (setBout m s).readMem i = s.readMem i := rfl
@[simp] theorem setBout_readPbuf (m : Memory Byte) (s : State) (i : Nat) : (setBout m s).readPbuf i = s.readPbuf i := rfl
@[simp] theorem setBout_readCbuf (m : Memory Byte) (s : State) (i : Nat) : (setBout m s).readCbuf i = s.readCbuf i := rfl
@[simp] theorem setBout_readKbuf (m : Memory Byte) (s : State) (i : Nat) : (setBout m s).readKbuf i = s.readKbuf i := rfl
@[simp] theorem setBout_readBin (m : Memory Byte) (s : State) (i : Nat) : (setBout m s).readBin i = s.readBin i := rfl
@[simp] theorem setBout_occ (m : Memory Byte) (s : State) : (setBout m s).occ = s.occ := rfl
@[simp] theorem setBout_free (m : Memory Byte) (s : State) : (setBout m s).free = s.free := rfl
@[simp] theorem setBout_full (m : Memory Byte) (s : State) : (setBout m s).full = s.full := rfl
@[simp] theorem setBout_empty (m : Memory Byte) (s : State) : (setBout m s).empty = s.empty := rfl
@[simp] theorem setBout_contents (m : Memory Byte) (s : State) : (setBout m s).contents = s.contents := rfl
@[simp] theorem setBout_rsp (m : Memory Byte) (s : State) (x : Port) : (setBout m s).rsp x = s.rsp x := by cases x <;> rfl
@[simp] theorem setRdata_readMem (v : Elem) (s : State) (i : Nat) : (setRdata v s).readMem i = s.readMem i := rfl
@[simp] theorem setRdata_readPbuf (v : Elem) (s : State) (i : Nat) : (setRdata v s).readPbuf i = s.readPbuf i := rfl
@[simp] theorem setRdata_readCbuf (v : Elem) (s : State) (i : Nat) : (setRdata v s).readCbuf i = s.readCbuf i := rfl
@[simp] theorem setRdata_readKbuf (v : Elem) (s : State) (i : Nat) : (setRdata v s).readKbuf i = s.readKbuf i := rfl
@[simp] theorem setRdata_readBin (v : Elem) (s : State) (i : Nat) : (setRdata v s).readBin i = s.readBin i := rfl
@[simp] theorem setRdata_readBout (v : Elem) (s : State) (i : Nat) : (setRdata v s).readBout i = s.readBout i := rfl
@[simp] theorem setRdata_occ (v : Elem) (s : State) : (setRdata v s).occ = s.occ := rfl
@[simp] theorem setRdata_free (v : Elem) (s : State) : (setRdata v s).free = s.free := rfl
@[simp] theorem setRdata_full (v : Elem) (s : State) : (setRdata v s).full = s.full := rfl
@[simp] theorem setRdata_empty (v : Elem) (s : State) : (setRdata v s).empty = s.empty := rfl
@[simp] theorem setRdata_contents (v : Elem) (s : State) : (setRdata v s).contents = s.contents := rfl
@[simp] theorem setRdata_rsp (v : Elem) (s : State) (x : Port) : (setRdata v s).rsp x = s.rsp x := by cases x <;> rfl
@[simp] theorem setCrc_readMem (c : Crc) (s : State) (i : Nat) : (setCrc c s).readMem i = s.readMem i := rfl
@[simp] theorem setCrc_readPbuf (c : Crc) (s : State) (i : Nat) : (setCrc c s).readPbuf i = s.readPbuf i := rfl
@[simp] theorem setCrc_readCbuf (c : Crc) (s : State) (i : Nat) : (setCrc c s).readCbuf i = s.readCbuf i := rfl
@[simp] theorem setCrc_readKbuf (c : Crc) (s : State) (i : Nat) : (setCrc c s).readKbuf i = s.readKbuf i := rfl
@[simp] theorem setCrc_readBin (c : Crc) (s : State) (i : Nat) : (setCrc c s).readBin i = s.readBin i := rfl
@[simp] theorem setCrc_readBout (c : Crc) (s : State) (i : Nat) : (setCrc c s).readBout i = s.readBout i := rfl
@[simp] theorem setCrc_occ (c : Crc) (s : State) : (setCrc c s).occ = s.occ := rfl
@[simp] theorem setCrc_free (c : Crc) (s : State) : (setCrc c s).free = s.free := rfl
@[simp] theorem setCrc_full (c : Crc) (s : State) : (setCrc c s).full = s.full := rfl
@[simp] theorem setCrc_empty (c : Crc) (s : State) : (setCrc c s).empty = s.empty := rfl
@[simp] theorem setCrc_contents (c : Crc) (s : State) : (setCrc c s).contents = s.contents := rfl
@[simp] theorem setCrc_rsp (c : Crc) (s : State) (x : Port) : (setCrc c s).rsp x = s.rsp x := by cases x <;> rfl
@[simp] theorem popElem_readMem (s : State) (i : Nat) : (popElem s).readMem i = s.readMem i := rfl
@[simp] theorem popElem_readPbuf (s : State) (i : Nat) : (popElem s).readPbuf i = s.readPbuf i := rfl
@[simp] theorem popElem_readCbuf (s : State) (i : Nat) : (popElem s).readCbuf i = s.readCbuf i := rfl
@[simp] theorem popElem_readKbuf (s : State) (i : Nat) : (popElem s).readKbuf i = s.readKbuf i := rfl
@[simp] theorem popElem_readBin (s : State) (i : Nat) : (popElem s).readBin i = s.readBin i := rfl
@[simp] theorem popElem_readBout (s : State) (i : Nat) : (popElem s).readBout i = s.readBout i := rfl
@[simp] theorem popElem_rsp (s : State) (x : Port) : (popElem s).rsp x = s.rsp x := by cases x <;> rfl
@[simp] theorem discardAll_readMem (s : State) (i : Nat) : (discardAll s).readMem i = s.readMem i := rfl
@[simp] theorem discardAll_readPbuf (s : State) (i : Nat) : (discardAll s).readPbuf i = s.readPbuf i := rfl
@[simp] theorem discardAll_readCbuf (s : State) (i : Nat) : (discardAll s).readCbuf i = s.readCbuf i := rfl
@[simp] theorem discardAll_readKbuf (s : State) (i : Nat) : (discardAll s).readKbuf i = s.readKbuf i := rfl
@[simp] theorem discardAll_readBin (s : State) (i : Nat) : (discardAll s).readBin i = s.readBin i := rfl
@[simp] theorem discardAll_readBout (s : State) (i : Nat) : (discardAll s).readBout i = s.readBout i := rfl
@[simp] theorem discardAll_rsp (s : State) (x : Port) : (discardAll s).rsp x = s.rsp x := by cases x <;> rfl
@[simp] theorem pushElem_rsp (v : Elem) (s : State) (x : Port) : (pushElem v s).rsp x = s.rsp x := by cases x <;> rfl
@[simp] theorem pushElem_readPbuf (v : Elem) (s : State) (i : Nat) : (pushElem v s).readPbuf i = s.readPbuf i := rfl
@[simp] theorem pushElem_readCbuf (v : Elem) (s : State) (i : Nat) : (pushElem v s).readCbuf i = s.readCbuf i := rfl
@[simp] theorem pushElem_readKbuf (v : Elem) (s : State) (i : Nat) : (pushElem v s).readKbuf i = s.readKbuf i := rfl
@[simp] theorem pushElem_readBin (v : Elem) (s : State) (i : Nat) : (pushElem v s).readBin i = s.readBin i := rfl
@[simp] theorem pushElem_readBout (v : Elem) (s : State) (i : Nat) : (pushElem v s).readBout i = s.readBout i := rfl
@[simp] theorem setInputs_lasting (rest : List Input) (s : State) : (setInputs rest s).lasting = s.lasting := rfl
@[simp] theorem setRdata_lasting (v : Elem) (s : State) : (setRdata v s).lasting = s.lasting := rfl
@[simp] theorem setCrc_lasting (c : Crc) (s : State) : (setCrc c s).lasting = s.lasting := rfl

/-! ### What the updates of the lasting state do to `lasting` -/

@[simp] theorem setPbuf_lasting (m : Memory Elem) (s : State) : (setPbuf m s).lasting = setPbuf m s.lasting := rfl
@[simp] theorem setPbuf_setPbuf (m n : Memory Elem) (s : State) : setPbuf m (setPbuf n s) = setPbuf m s := rfl
theorem setPbuf_same_lasting (s : State) : setPbuf s.pbuf s.lasting = s.lasting := rfl
@[simp] theorem setCbuf_lasting (m : Memory Elem) (s : State) : (setCbuf m s).lasting = setCbuf m s.lasting := rfl
@[simp] theorem setCbuf_setCbuf (m n : Memory Elem) (s : State) : setCbuf m (setCbuf n s) = setCbuf m s := rfl
theorem setCbuf_same_lasting (s : State) : setCbuf s.cbuf s.lasting = s.lasting := rfl
@[simp] theorem setKbuf_lasting (m : Memory Byte) (s : State) : (setKbuf m s).lasting = setKbuf m s.lasting := rfl
@[simp] theorem setKbuf_setKbuf (m n : Memory Byte) (s : State) : setKbuf m (setKbuf n s) = setKbuf m s := rfl
theorem setKbuf_same_lasting (s : State) : setKbuf s.kbuf s.lasting = s.lasting := rfl
@[simp] theorem setBin_lasting (m : Memory Byte) (s : State) : (setBin m s).lasting = setBin m s.lasting := rfl
@[simp] theorem setBin_setBin (m n : Memory Byte) (s : State) : setBin m (setBin n s) = setBin m s := rfl
theorem setBin_same_lasting (s : State) : setBin s.bin s.lasting = s.lasting := rfl
@[simp] theorem setBout_lasting (m : Memory Byte) (s : State) : (setBout m s).lasting = setBout m s.lasting := rfl
@[simp] theorem setBout_setBout (m n : Memory Byte) (s : State) : setBout m (setBout n s) = setBout m s := rfl
theorem setBout_same_lasting (s : State) : setBout s.bout s.lasting = s.lasting := rfl
@[simp] theorem setPInflight_lasting (m : Option PushInflight) (s : State) : (setPInflight m s).lasting = setPInflight m s.lasting := rfl
@[simp] theorem setPInflight_setPInflight (m n : Option PushInflight) (s : State) : setPInflight m (setPInflight n s) = setPInflight m s := rfl
theorem setPInflight_same_lasting (s : State) : setPInflight s.pInflight s.lasting = s.lasting := rfl
@[simp] theorem setCInflight_lasting (m : Option PopInflight) (s : State) : (setCInflight m s).lasting = setCInflight m s.lasting := rfl
@[simp] theorem setCInflight_setCInflight (m n : Option PopInflight) (s : State) : setCInflight m (setCInflight n s) = setCInflight m s := rfl
theorem setCInflight_same_lasting (s : State) : setCInflight s.cInflight s.lasting = s.lasting := rfl
@[simp] theorem pushElem_lasting (v : Elem) (s : State) : (pushElem v s).lasting = pushElem v s.lasting := rfl
@[simp] theorem popElem_lasting (s : State) : (popElem s).lasting = popElem s.lasting := rfl
@[simp] theorem discardAll_lasting (s : State) : (discardAll s).lasting = discardAll s.lasting := rfl
@[simp] theorem discardAll_occ (s : State) : (discardAll s).occ = 0 := occ_of_rd_eq_wr rfl
@[simp] theorem discardAll_contents (s : State) : (discardAll s).contents = [] := contents_of_occ_zero (discardAll_occ s)

theorem setCbuf_write_readCbuf_same (s : State) (i : Nat) (v : Elem) :
    (setCbuf (s.cbuf.write i v) s).readCbuf i = v := by simp [State.readCbuf]

theorem setCbuf_write_readCbuf_other {s : State} {i a : Nat} (h : a ≠ i) (v : Elem) :
    (setCbuf (s.cbuf.write i v) s).readCbuf a = s.readCbuf a := by
  simp [State.readCbuf, Memory.lookup_write_other _ h]

theorem setBout_writeSpan_readBout {s : State} {out : List Byte} {a : Nat} :
    (setBout (s.bout.writeSpan 0 out) s).readBout a = (out[a]?).getD (s.readBout a) := by
  simp only [State.readBout, setBout_bout, Memory.lookup_writeSpan, Memory.epoch_writeSpan, Nat.zero_le, true_and,
    Nat.zero_add, Nat.sub_zero]
  by_cases h : a < out.length
  · simp [h]
  · simp [h]

@[simp] theorem issued_rsp (x : Port) (v : Elem) (rest : List Input) (s : State) (y : Port) :
    (issued x v rest s).rsp y = none := by cases x <;> cases y <;> rfl
@[simp] theorem issued_p_pWdata (v : Elem) (rest : List Input) (s : State) :
    (issued .p v rest s).pWdata = v % 2 ^ s.params.width := rfl

/-! ### `carryOut`: refused, or its own rule (30_encoding.md R69) -/

theorem carryOut_refused {ports : List Port} {ok : Bool} {rule : State → State} {s : State}
    (h : (ports.contains s.port && ok) = false) : carryOut ports ok rule s = respond s.port .illegal 0 s := by
  rw [carryOut, h]
  rfl

theorem carryOut_accepted {ports : List Port} {ok : Bool} {rule : State → State} {s : State}
    (h : (ports.contains s.port && ok) = true) : carryOut ports ok rule s = rule s := by
  rw [carryOut, h]
  rfl

/-- All that `carryOut` can answer. -/
theorem carryOut_cases (ports : List Port) (ok : Bool) (rule : State → State) (s : State) :
    (s.port ∈ ports ∧ ok = true ∧ carryOut ports ok rule s = rule s) ∨
      (¬ (s.port ∈ ports ∧ ok = true) ∧ carryOut ports ok rule s = respond s.port .illegal 0 s) := by
  cases h : ports.contains s.port && ok with
  | true =>
    simp only [Bool.and_eq_true, List.contains_iff_mem] at h
    exact .inl ⟨h.1, h.2, carryOut_accepted (by simp [h.1, h.2])⟩
  | false =>
    refine .inr ⟨fun hm => ?_, carryOut_refused h⟩
    simp [hm.1, hm.2] at h

/-! ### The frames of the updates -/

theorem Frame.refl (x : Port) (memAt cbufAt boutAt : Nat → Prop) (s : State) : Frame x memAt cbufAt boutAt s s := by
  constructor <;> intros <;> rfl

theorem pushElem_frame (v : Elem) (s : State) : Frame .p (fun a => a = s.wr) nowhere nowhere s (pushElem v s) :=
  { Frame.refl .p (fun a => a = s.wr) nowhere nowhere s with
    mem := fun _ ha => readMem_pushElem_other v ha
    others := fun y _ => pushElem_rsp v s y }

theorem popElem_frame (s : State) : Frame .c nowhere nowhere nowhere s (popElem s) :=
  { Frame.refl .c nowhere nowhere nowhere s with others := fun y _ => popElem_rsp s y }

theorem discardAll_frame (s : State) : Frame .c nowhere nowhere nowhere s (discardAll s) :=
  { Frame.refl .c nowhere nowhere nowhere s with others := fun y _ => discardAll_rsp s y }

theorem Frame.setPInflight {x : Port} {memAt cbufAt boutAt : Nat → Prop} {s t : State}
    (h : Frame x memAt cbufAt boutAt s t) (r : Option PushInflight) :
    Frame x memAt cbufAt boutAt s (Machine.setPInflight r t) :=
  { h with others := fun y hy => (setPInflight_rsp r t y).trans (h.others y hy) }

theorem Frame.setCInflight {x : Port} {memAt cbufAt boutAt : Nat → Prop} {s t : State}
    (h : Frame x memAt cbufAt boutAt s t) (r : Option PopInflight) :
    Frame x memAt cbufAt boutAt s (Machine.setCInflight r t) :=
  { h with others := fun y hy => (setCInflight_rsp r t y).trans (h.others y hy) }

theorem Frame.setRdata {memAt cbufAt boutAt : Nat → Prop} {s t : State}
    (h : Frame .c memAt cbufAt boutAt s t) (v : Elem) : Frame .c memAt cbufAt boutAt s (Machine.setRdata v t) :=
  { h with others := fun y hy => (setRdata_rsp v t y).trans (h.others y hy), rdata := fun hc => absurd rfl hc }

theorem Frame.setCrc {memAt cbufAt boutAt : Nat → Prop} {s t : State}
    (h : Frame .k memAt cbufAt boutAt s t) (c : Crc) : Frame .k memAt cbufAt boutAt s (Machine.setCrc c t) :=
  { h with others := fun y hy => (setCrc_rsp c t y).trans (h.others y hy), crc := fun hk => absurd rfl hk }

/-- Writing a span to `BOUT`. -/
theorem writeBout_frame (out : List Byte) (s : State) :
    Frame .b nowhere nowhere (fun a => a < out.length) s (setBout (s.bout.writeSpan 0 out) s) :=
  { Frame.refl .b nowhere nowhere (fun a => a < out.length) s with
    bout := fun a ha => by
      rw [setBout_writeSpan_readBout, List.getElem?_eq_none (by omega), Option.getD_none]
    others := fun y _ => setBout_rsp _ s y }

/-- Every command answers a next state. -/
theorem exec_next (i : Instr) (s : State) : ∃ t, exec i s = .next t := by cases i <;> exact ⟨_, rfl⟩

end Sys2Proof.Machine
end

