-- ==== Sys2Proof/Laws/PerInstr.lean ====
section
/-! SUPPORT. The fields of an encoded command, constructor by constructor. -/

namespace Sys2Proof

theorem opField_encode (i : Instr) : opField (encode i) = opOf i := BitVec.extractLsb'_append_eq_left

theorem lenField_encode (i : Instr) : lenField (encode i) = i.len := BitVec.extractLsb'_append_eq_right

/-- A word is its two fields, `op` above `len` (30_encoding.md R62). -/
theorem append_fields (w : CmdWord) : opField w ++ lenField w = w := by
  apply BitVec.eq_of_getLsbD_eq
  intro j hj
  change (BitVec.extractLsb' 16 4 w ++ BitVec.extractLsb' 0 16 w : BitVec (4 + 16)).getLsbD j = _
  rw [BitVec.getLsbD_append]
  split
  · next h => simp [h]
  · rw [BitVec.getLsbD_extractLsb', show 16 + (j - 16) = j by omega]
    simp
    omega

end Sys2Proof

namespace Sys2Proof.Laws.EncodeFields

/-- The encoded word carries the operation code and the length of the command in their fields (30_encoding.md R62). -/
def Statement (i : Instr) : Prop := opField (encode i) = opOf i ∧ lenField (encode i) = i.len

theorem nop (len : Len) : Statement (.nop len) := ⟨opField_encode _, lenField_encode _⟩
theorem push (len : Len) : Statement (.push len) := ⟨opField_encode _, lenField_encode _⟩
theorem pushblk (len : Len) : Statement (.pushblk len) := ⟨opField_encode _, lenField_encode _⟩
theorem pop (len : Len) : Statement (.pop len) := ⟨opField_encode _, lenField_encode _⟩
theorem popblk (len : Len) : Statement (.popblk len) := ⟨opField_encode _, lenField_encode _⟩
theorem free (len : Len) : Statement (.free len) := ⟨opField_encode _, lenField_encode _⟩
theorem occ (len : Len) : Statement (.occ len) := ⟨opField_encode _, lenField_encode _⟩
theorem clear (len : Len) : Statement (.clear len) := ⟨opField_encode _, lenField_encode _⟩
theorem crc32 (len : Len) : Statement (.crc32 len) := ⟨opField_encode _, lenField_encode _⟩
theorem cobsenc (len : Len) : Statement (.cobsenc len) := ⟨opField_encode _, lenField_encode _⟩
theorem cobsdec (len : Len) : Statement (.cobsdec len) := ⟨opField_encode _, lenField_encode _⟩
theorem reservedB (len : Len) : Statement (.reservedB len) := ⟨opField_encode _, lenField_encode _⟩
theorem reservedC (len : Len) : Statement (.reservedC len) := ⟨opField_encode _, lenField_encode _⟩
theorem reservedD (len : Len) : Statement (.reservedD len) := ⟨opField_encode _, lenField_encode _⟩
theorem reservedE (len : Len) : Statement (.reservedE len) := ⟨opField_encode _, lenField_encode _⟩
theorem reservedF (len : Len) : Statement (.reservedF len) := ⟨opField_encode _, lenField_encode _⟩

end Sys2Proof.Laws.EncodeFields
end

