-- ==== Sys2Proof/Laws/Step.lean ====
section
/-! SUPPORT. All that one step can do, said once: the inversion of `step`, and the equations by which a run is followed. -/

namespace Sys2Proof.Machine

theorem afterFirstReset_next {s t : State} {o : Host.Outcome State Fault Refusal}
    (h : afterFirstReset s o = .next t) : s.resetSeen = true ∧ o = .next t := by
  unfold afterFirstReset at h
  split at h
  · next hs => exact ⟨hs, h⟩
  · cases h

theorem accepts_iff {x : Port} {s : State} : accepts x s = true ↔ s.resetSeen = true ∧ s.busy x = false := by
  simp [accepts]

/-- If a step answers a next state, one of these holds. -/
theorem step_next_cases {s t : State} (h : step s = .next t) :
    (s.inputs = [] ∧ s.resetSeen = true ∧
      t = (if s.busy .p then elementStep .p (newStep s)
        else if s.busy .c then elementStep .c (newStep s) else newStep s)) ∨
    (∃ x w v rest, s.inputs = .issue x w v :: rest ∧ s.resetSeen = true ∧ s.busy x = false ∧
      exec (decodeWord w) (issued x v rest s) = .next t) ∨
    (∃ x w v rest, s.inputs = .issue x w v :: rest ∧ s.resetSeen = true ∧ s.busy x = true ∧
      t = newStep (setInputs rest s)) ∨
    (∃ x rest, s.inputs = .advance x :: rest ∧ s.resetSeen = true ∧
      t = elementStep x (newStep (setInputs rest s))) ∨
    (∃ i v rest, s.inputs = .writePbuf i v :: rest ∧ s.resetSeen = true ∧ i < s.params.capacity - 1 ∧
      t = (if s.busy .p
        then setPbuf (s.pbuf.unspecify) (newStep (setInputs rest s))
        else setPbuf (s.pbuf.write i (v % 2 ^ s.params.width)) (newStep (setInputs rest s)))) ∨
    (∃ i v rest, s.inputs = .writeKbuf i v :: rest ∧ s.resetSeen = true ∧ i < s.params.maxSpan ∧
      t = setKbuf (s.kbuf.write i v) (newStep (setInputs rest s))) ∨
    (∃ i v rest, s.inputs = .writeBin i v :: rest ∧ s.resetSeen = true ∧ i < s.params.maxEncoded ∧
      t = setBin (s.bin.write i v) (newStep (setInputs rest s))) ∨
    (∃ rest, s.inputs = .reset :: rest ∧ t = resetStep (setInputs rest s)) := by
  unfold step at h
  split at h
  · next hi =>
    obtain ⟨hs, h⟩ := afterFirstReset_next h
    exact .inl ⟨hi, hs, (Host.Outcome.next.inj h).symm⟩
  · next x w v rest hi =>
    split at h
    · next ha =>
      obtain ⟨hs, hb⟩ := accepts_iff.1 ha
      exact .inr (.inl ⟨x, w, v, rest, hi, hs, hb, h⟩)
    · next ha =>
      obtain ⟨hs, h⟩ := afterFirstReset_next h
      have hb : s.busy x = true := by
        cases hb : s.busy x with
        | true => rfl
        | false => exact absurd (accepts_iff.2 ⟨hs, hb⟩) ha
      exact .inr (.inr (.inl ⟨x, w, v, rest, hi, hs, hb, (Host.Outcome.next.inj h).symm⟩))
  · next x rest hi =>
    obtain ⟨hs, h⟩ := afterFirstReset_next h
    exact .inr (.inr (.inr (.inl ⟨x, rest, hi, hs, (Host.Outcome.next.inj h).symm⟩)))
  · next i v rest hi =>
    obtain ⟨hs, h⟩ := afterFirstReset_next h
    refine .inr (.inr (.inr (.inr (.inl ⟨i, v, rest, hi, hs, ?_⟩))))
    by_cases hd : s.params.capacity - 1 ≤ i
    · rw [if_pos hd] at h
      cases h
    · rw [if_neg hd] at h
      refine ⟨by omega, ?_⟩
      by_cases hb : s.busy .p = true
      · rw [if_pos hb] at h ⊢
        exact (Host.Outcome.next.inj h).symm
      · rw [if_neg hb] at h ⊢
        exact (Host.Outcome.next.inj h).symm
  · next i v rest hi =>
    obtain ⟨hs, h⟩ := afterFirstReset_next h
    refine .inr (.inr (.inr (.inr (.inr (.inl ⟨i, v, rest, hi, hs, ?_⟩)))))
    by_cases hd : s.params.maxSpan ≤ i
    · rw [if_pos hd] at h
      cases h
    · rw [if_neg hd] at h
      exact ⟨by omega, (Host.Outcome.next.inj h).symm⟩
  · next i v rest hi =>
    obtain ⟨hs, h⟩ := afterFirstReset_next h
    refine .inr (.inr (.inr (.inr (.inr (.inr (.inl ⟨i, v, rest, hi, hs, ?_⟩))))))
    by_cases hd : s.params.maxEncoded ≤ i
    · rw [if_pos hd] at h
      cases h
    · rw [if_neg hd] at h
      exact ⟨by omega, (Host.Outcome.next.inj h).symm⟩
  · next rest hi => exact .inr (.inr (.inr (.inr (.inr (.inr (.inr ⟨rest, hi, (Host.Outcome.next.inj h).symm⟩))))))

@[simp] theorem elementStep_p (s : State) : elementStep .p s = pushblkElement s := rfl
@[simp] theorem elementStep_c (s : State) : elementStep .c s = popblkElement s := rfl
@[simp] theorem elementStep_k (s : State) : elementStep .k s = s := rfl
@[simp] theorem elementStep_b (s : State) : elementStep .b s = s := rfl

/-- An element step of PUSHBLK, all of it (40_fifo.md R82). -/
theorem pushblkElement_cases (s : State) :
    (s.pInflight = none ∧ pushblkElement s = s) ∨
    (∃ r, s.pInflight = some r ∧ r.i + 1 = r.n ∧
      pushblkElement s = respond .p .ok 0 (setPInflight none (pushElem (s.readPbuf r.i) s))) ∨
    (∃ r, s.pInflight = some r ∧ r.i + 1 ≠ r.n ∧
      pushblkElement s = setPInflight (some ⟨r.n, r.i + 1⟩) (pushElem (s.readPbuf r.i) s)) := by
  unfold pushblkElement
  cases h : s.pInflight with
  | none => exact .inl ⟨rfl, rfl⟩
  | some r =>
    by_cases hl : r.i + 1 = r.n
    · exact .inr (.inl ⟨r, rfl, hl, by simp only [hl, if_true]⟩)
    · exact .inr (.inr ⟨r, rfl, hl, by simp only [hl, if_false]⟩)

/-- An element step of POPBLK, all of it (40_fifo.md R84). -/
theorem popblkElement_cases (s : State) :
    (s.cInflight = none ∧ popblkElement s = s) ∨
    (∃ r, s.cInflight = some r ∧ r.i + 1 = r.count ∧ popblkElement s =
      respond .c .ok r.count
        (setCInflight none (popElem (setCbuf (s.cbuf.write r.i (s.readMem s.rd)) s)))) ∨
    (∃ r, s.cInflight = some r ∧ r.i + 1 ≠ r.count ∧ popblkElement s =
      setCInflight (some ⟨r.count, r.i + 1⟩) (popElem (setCbuf (s.cbuf.write r.i (s.readMem s.rd)) s))) := by
  unfold popblkElement
  cases h : s.cInflight with
  | none => exact .inl ⟨rfl, rfl⟩
  | some r =>
    by_cases hl : r.i + 1 = r.count
    · exact .inr (.inl ⟨r, rfl, hl, by simp only [hl, if_true]⟩)
    · exact .inr (.inr ⟨r, rfl, hl, by simp only [hl, if_false]⟩)

/-! ### What a command can do to the queue -/

/-- What a command that moves no element and starts no block keeps. -/
structure CommandKeeps (s t : State) : Prop where
  params : t.params = s.params
  mem : t.mem = s.mem
  wr : t.wr = s.wr
  rd : t.rd = s.rd
  pInflight : t.pInflight = s.pInflight
  cInflight : t.cInflight = s.cInflight
  pbuf : t.pbuf = s.pbuf
  cbuf : t.cbuf = s.cbuf
  kbuf : t.kbuf = s.kbuf
  bin : t.bin = s.bin
  bout : s.port ≠ .b → t.bout = s.bout
  inputs : t.inputs = s.inputs
  resetSeen : t.resetSeen = s.resetSeen

theorem CommandKeeps.respond (x : Port) (st : Status) (n : Nat) (s : State) : CommandKeeps s (respond x st n s) := by
  constructor <;> simp

theorem carryOut_keeps {ports : List Port} {ok : Bool} {rule : State → State} {s : State}
    (h : s.port ∈ ports → CommandKeeps s (rule s)) : CommandKeeps s (carryOut ports ok rule s) := by
  rcases carryOut_cases ports ok rule s with ⟨hp, _, c⟩ | ⟨_, c⟩ <;> rw [c]
  · exact h hp
  · exact .respond _ _ _ _

/-- All that a command can do when it is carried out, by what it does to the queue and the blocks in flight: nothing (and
then a PUSH or a POP on its port has answered FAIL), or one of five updates (40_fifo.md R81 to R84, R87). -/
theorem exec_next_cases {i : Instr} {s t : State} (h : exec i s = .next t) :
    (CommandKeeps s t ∧
      (∀ len, i = .push len → s.port = .p → s.full = true ∧ t.pRsp = some ⟨.fail, 0⟩) ∧
      (∀ len, i = .pop len → s.port = .c → s.empty = true ∧ t.cRsp = some ⟨.fail, 0⟩) ∧
      (∀ len, i = .clear len → s.port ≠ .c)) ∨
    (∃ len, i = .push len ∧ s.port = .p ∧ s.full = false ∧ t = respond .p .ok 0 (pushElem s.pWdata s)) ∨
    (∃ len, i = .pushblk len ∧ s.port = .p ∧ t = setPInflight (some ⟨len.toNat, 0⟩) s) ∨
    (∃ len, i = .pop len ∧ s.port = .c ∧ s.empty = false ∧
      t = setRdata (s.readMem s.rd) (respond .c .ok 0 (popElem s))) ∨
    (∃ len n, i = .popblk len ∧ s.port = .c ∧ t = setCInflight (some ⟨n, 0⟩) s) ∨
    (∃ len, i = .clear len ∧ s.port = .c ∧ t = respond .c .ok 0 (discardAll s)) := by
  have quiet : ∀ u, CommandKeeps s u → (∀ len, i ≠ .push len ∧ i ≠ .pop len ∧ i ≠ .clear len) →
      CommandKeeps s u ∧ (∀ len, i = .push len → s.port = .p → s.full = true ∧ u.pRsp = some ⟨.fail, 0⟩) ∧
      (∀ len, i = .pop len → s.port = .c → s.empty = true ∧ u.cRsp = some ⟨.fail, 0⟩) ∧
      (∀ len, i = .clear len → s.port ≠ .c) := by
    intro u hu hi
    exact ⟨hu, fun len e => absurd e (hi len).1, fun len e => absurd e (hi len).2.1,
      fun len e => absurd e (hi len).2.2⟩
  cases i with
  | nop len => cases h; exact .inl (quiet _ (carryOut_keeps fun _ => .respond _ _ _ _) (by simp))
  | push len =>
    cases h
    rcases carryOut_cases [.p] true pushRule s with ⟨hp, _, c⟩ | ⟨hp, c⟩ <;> rw [c]
    · replace hp : s.port = .p := by simpa using hp
      unfold pushRule
      split
      · next hf => exact .inl ⟨.respond _ _ _ _, fun _ _ _ => ⟨hf, by rw [hp]; rfl⟩, by simp, by simp⟩
      · next hf => exact .inr (.inl ⟨len, rfl, hp, by simpa using hf, by rw [hp]; rfl⟩)
    · refine .inl ⟨.respond _ _ _ _, fun _ _ h => ?_, by simp, by simp⟩
      simp [h] at hp
  | pushblk len =>
    cases h
    rcases carryOut_cases [.p] true (pushblkRule (count len)) s with ⟨hp, _, c⟩ | ⟨hp, c⟩ <;> rw [c]
    · replace hp : s.port = .p := by simpa using hp
      unfold pushblkRule
      split
      · exact .inl (quiet _ (.respond _ _ _ _) (by simp))
      · split
        · exact .inl (quiet _ (.respond _ _ _ _) (by simp))
        · exact .inr (.inr (.inl ⟨len, rfl, hp, rfl⟩))
    · exact .inl (quiet _ (.respond _ _ _ _) (by simp))
  | pop len =>
    cases h
    rcases carryOut_cases [.c] true popRule s with ⟨hp, _, c⟩ | ⟨hp, c⟩ <;> rw [c]
    · replace hp : s.port = .c := by simpa using hp
      unfold popRule
      split
      · next he => exact .inl ⟨.respond _ _ _ _, by simp, fun _ _ _ => ⟨he, by rw [hp]; rfl⟩, by simp⟩
      · next he => exact .inr (.inr (.inr (.inl ⟨len, rfl, hp, by simpa using he, by rw [hp]⟩)))
    · refine .inl ⟨.respond _ _ _ _, by simp, fun _ _ h => ?_, by simp⟩
      simp [h] at hp
  | popblk len =>
    cases h
    rcases carryOut_cases [.c] true (popblkRule (count len)) s with ⟨hp, _, c⟩ | ⟨hp, c⟩ <;> rw [c]
    · replace hp : s.port = .c := by simpa using hp
      unfold popblkRule
      split
      · exact .inl (quiet _ (.respond _ _ _ _) (by simp))
      · exact .inr (.inr (.inr (.inr (.inl ⟨len, _, rfl, hp, rfl⟩))))
    · exact .inl (quiet _ (.respond _ _ _ _) (by simp))
  | free len => cases h; exact .inl (quiet _ (carryOut_keeps fun _ => .respond _ _ _ _) (by simp))
  | occ len => cases h; exact .inl (quiet _ (carryOut_keeps fun _ => .respond _ _ _ _) (by simp))
  | clear len =>
    cases h
    rcases carryOut_cases [.c] true clearRule s with ⟨hp, _, c⟩ | ⟨hp, c⟩ <;> rw [c]
    · replace hp : s.port = .c := by simpa using hp
      exact .inr (.inr (.inr (.inr (.inr ⟨len, rfl, hp, by rw [clearRule, hp]⟩))))
    · refine .inl ⟨.respond _ _ _ _, by simp, by simp, fun _ _ h => ?_⟩
      simp [h] at hp
  | crc32 len =>
    cases h
    refine .inl (quiet _ (carryOut_keeps fun _ => ?_) (by simp))
    constructor <;> simp [crc32Rule]
  | cobsenc len =>
    cases h
    refine .inl (quiet _ (carryOut_keeps fun hp => ?_) (by simp))
    replace hp : s.port = .b := by simpa using hp
    constructor <;> simp [cobsencRule, hp]
  | cobsdec len =>
    cases h
    refine .inl (quiet _ (carryOut_keeps fun hp => ?_) (by simp))
    replace hp : s.port = .b := by simpa using hp
    unfold cobsdecRule
    split <;> constructor <;> simp [hp]
  | reservedB len => cases h; exact .inl (quiet _ (.respond _ _ _ _) (by simp))
  | reservedC len => cases h; exact .inl (quiet _ (.respond _ _ _ _) (by simp))
  | reservedD len => cases h; exact .inl (quiet _ (.respond _ _ _ _) (by simp))
  | reservedE len => cases h; exact .inl (quiet _ (.respond _ _ _ _) (by simp))
  | reservedF len => cases h; exact .inl (quiet _ (.respond _ _ _ _) (by simp))

/-! ### The equations of `step`, by what comes next -/

theorem step_issue {s : State} {x : Port} {w : CmdWord} {v : Elem} {rest : List Input}
    (hi : s.inputs = .issue x w v :: rest) (hs : s.resetSeen = true) (hb : s.busy x = false) :
    step s = exec (decodeWord w) (issued x v rest s) := by
  simp only [step, hi, accepts_iff.2 ⟨hs, hb⟩, if_true]

theorem step_advance {s : State} {x : Port} {rest : List Input} (hi : s.inputs = .advance x :: rest)
    (hs : s.resetSeen = true) : step s = .next (elementStep x (newStep (setInputs rest s))) := by
  simp only [step, hi, advanceTurn, afterFirstReset, hs, if_true]

theorem step_reset {s : State} {rest : List Input} (hi : s.inputs = .reset :: rest) :
    step s = .next (resetStep (setInputs rest s)) := by
  simp only [step, hi, resetTurn]

theorem step_idle {s : State} (hi : s.inputs = []) (hs : s.resetSeen = true) :
    step s = .next (if s.busy .p then elementStep .p (newStep s)
      else if s.busy .c then elementStep .c (newStep s) else newStep s) := by
  simp only [step, hi, idleTurn, afterFirstReset, hs, if_true]

theorem setInputs_self {s : State} {l : List Input} (h : s.inputs = l) : setInputs l s = s := by
  subst h
  rfl

/-- The element step of the port whose turn it is, scheduled or idle, is the whole step. -/
theorem step_elementPort {s : State} {x : Port} (he : s.elementPort = some x) (hs : s.resetSeen = true) :
    step s = .next (elementStep x (newStep (setInputs s.inputs.tail s))) := by
  unfold State.elementPort at he
  split at he
  · next hi =>
    rw [step_idle hi hs, hi, List.tail_nil, setInputs_self hi]
    split at he
    · next hb =>
      rw [if_pos hb, Option.some.inj he]
    · next hb =>
      split at he
      · next hc => rw [if_neg hb, if_pos hc, Option.some.inj he]
      · cases he
  · next y rest hi =>
    split at he
    · rw [step_advance hi hs, hi, List.tail_cons, Option.some.inj he]
    · cases he
  · cases he
  · cases he
  · cases he
  · cases he
  · cases he

/-- An idle turn with nothing in flight only takes the responses back. -/
theorem step_nothing {s : State} (hi : s.inputs = []) (he : s.elementPort = none) (hs : s.resetSeen = true) :
    step s = .next (newStep s) := by
  rw [step_idle hi hs]
  simp only [State.elementPort, hi] at he
  split at he
  · cases he
  · next hb =>
    split at he
    · cases he
    · next hc => rw [if_neg hb, if_neg hc]

/-- A run of `j + k` steps is a run of `j` and then one of `k`. -/
theorem run_add {j k : Nat} {s t : State} (h : Sys2Proof.core.run j s = .next t) :
    Sys2Proof.core.run (j + k) s = Sys2Proof.core.run k t := by
  induction j generalizing s with
  | zero =>
    cases h
    rw [Nat.zero_add]
  | succ j ih =>
    rw [show j + 1 + k = (j + k) + 1 by omega]
    simp only [Host.Core.run] at h ⊢
    split at h
    · exact ih h
    · cases h
    · cases h

end Sys2Proof.Machine
end

