-- ==== Sys2Proof/Tests/Slice0.lean ====
section
/-! SUPPORT. The model's own tests. Expected results come from the vectors of 95_test_vectors.md or are worked by hand from
the rule named. The witnesses show, for each obligation with hypotheses, states and operands that meet them. -/

namespace Sys2Proof.Tests

open Sys2Proof Sys2Proof.Machine

/-! ### A small block to test with -/

/-- `WIDTH = 8`, `CAPACITY = 4`, `MAX_RECORD = 4`, `MAX_SPAN = 9`; so `MAX_ENCODED = 5`. -/
def params4 : Params := { width := 8, capacity := 4, maxRecord := 4, maxSpan := 9 }

/-- Just after reset, with the two free outputs set to 0, so that every field is written out. -/
def blank : State := { State.resetWith params4 with cRdata := 0, kCrc := 0 }

/-- A queue at the given indices over the given slots. -/
def queue (rd wr : Nat) (slots : List (Nat × Elem)) : State :=
  { blank with rd := rd, wr := wr, mem := { epoch := 0, cells := slots } }

/-- V-Q-5, `RD = WR = 2`. -/
def emptyQ : State := queue 2 2 []

/-- V-Q-1 line 2, `(0,2,A1,A2,--,--)`. -/
def twoQ : State := queue 0 2 [(0, 0xA1), (1, 0xA2)]

/-- V-Q-1 line 7, `(1,0,--,A2,A3,A4)`: full, `WR` wrapped. -/
def fullQ : State := queue 1 0 [(1, 0xA2), (2, 0xA3), (3, 0xA4)]

/-- V-Q-4, `(2,3,--,--,70,--)` with `PBUF = [10,11,12]`. -/
def blockQ : State :=
  { queue 2 3 [(2, 0x70)] with pbuf := { epoch := 0, cells := [(0, 0x10), (1, 0x11), (2, 0x12)] } }

/-- `blockQ` inside a PUSHBLK of 2: one element pushed, the last to come. -/
def pushingQ : State :=
  { queue 2 0 [(2, 0x70), (3, 0x10)] with
    pbuf := { epoch := 0, cells := [(0, 0x10), (1, 0x11), (2, 0x12)] }, pInflight := some ⟨2, 1⟩ }

/-- `blockQ` right after the check step of a PUSHBLK of 2. -/
def pushingQ0 : State := { blockQ with pInflight := some ⟨2, 0⟩ }

/-- `twoQ` right after the count step of a POPBLK of 2. -/
def poppingQ0 : State := { twoQ with cInflight := some ⟨2, 0⟩ }

/-- `twoQ` inside a POPBLK of 2: one element popped, the last to come. -/
def poppingQ : State :=
  { twoQ with rd := 1, cbuf := { epoch := 0, cells := [(0, 0xA1)] }, cInflight := some ⟨2, 1⟩ }

/-- `KBUF[0..8]` holds the nine bytes of V-CRC-2. -/
def checkSpan : State :=
  { blank with
    kbuf := { epoch := 0, cells := [(0, 0x31), (1, 0x32), (2, 0x33), (3, 0x34), (4, 0x35), (5, 0x36), (6, 0x37),
      (7, 0x38), (8, 0x39)] } }

/-- `BIN` holds these bytes from index 0. -/
def inBin (bytes : List Byte) : State := { blank with bin := Memory.unwritten.writeSpan 0 bytes }

/-- The state with a command on port `x`, as `exec` finds it. -/
def onPort (x : Port) (s : State) : State := { s with port := x }

/-- The next state of an outcome, the given one where there is none. -/
def nextOr (d : State) : Host.Outcome State Fault Refusal → State
  | .next t => t
  | .fault _ => d
  | .refused _ => d

/-- The state after `k` steps. -/
def after (k : Nat) (s : State) : State := nextOr s (Sys2Proof.core.run k s)

/-- The state after the command `w` on port `x`. -/
def command (x : Port) (w : CmdWord) (s : State) (v : Elem := 0) : State :=
  after 1 (setInputs [.issue x w v] s)

/-! ### The checks of WellFormed, each with a term it refuses -/

theorem test_params4_ok : params4.ok = true := by decide
theorem test_resetParams_ok : Config.resetParams.ok = true := by decide
theorem test_params_no_width : { params4 with width := 0 }.ok = false := by decide
theorem test_params_one_slot : { params4 with capacity := 1 }.ok = false := by decide
theorem test_params_too_many_slots : { params4 with capacity := 65537 }.ok = false := by decide
theorem test_params_record_too_long : { params4 with maxRecord := 65278 }.ok = false := by decide
theorem test_params_longest_record : { params4 with maxRecord := 65277 }.ok = true := by decide
theorem test_params_span_too_long : { params4 with maxSpan := 65536 }.ok = false := by decide

/-- V-ERR-1. -/
theorem test_illFormed_reserved : (Instr.reservedB 0).illFormed? Config.resetParams .p = some .reservedOp := by decide
/-- V-ERR-2. -/
theorem test_illFormed_port : (Instr.push 0).illFormed? Config.resetParams .c = some .wrongPort := by decide
/-- V-ERR-8. -/
theorem test_illFormed_span : (Instr.crc32 26).illFormed? Config.resetParams .k = some .lenOverLimit := by decide
/-- V-ERR-10. -/
theorem test_illFormed_record : (Instr.cobsenc 26).illFormed? Config.resetParams .b = some .lenOverLimit := by decide
/-- V-ERR-12. -/
theorem test_illFormed_encoded : (Instr.cobsdec 27).illFormed? Config.resetParams .b = some .lenOverLimit := by decide
/-- V-ERR-9, V-ERR-11, V-ERR-13, V-ERR-14. -/
theorem test_wellFormed_limits :
    (Instr.crc32 25).wellFormed Config.resetParams .k = true ∧
      (Instr.cobsenc 25).wellFormed Config.resetParams .b = true ∧
      (Instr.cobsdec 26).wellFormed Config.resetParams .b = true ∧
      (Instr.nop 0).wellFormed Config.resetParams .k = true ∧
      (Instr.nop 0).wellFormed Config.resetParams .b = true := by decide

/-! ### Decoding: words written out from the opcode map, `op` in bits 19:16, `len` in bits 15:0 (V-ENC-1 to V-ENC-14) -/

theorem test_decode_nop : decodeWord 0b00000000000000000000#20 = .nop 0 := by decide
theorem test_decode_push : decodeWord 0b00011111111111111111#20 = .push 65535 := by decide
theorem test_decode_pushblk : decodeWord 0b00100000000000000011#20 = .pushblk 3 := by decide
theorem test_decode_pop : decodeWord 0b00110000000000000000#20 = .pop 0 := by decide
theorem test_decode_popblk : decodeWord 0b01000000000000010000#20 = .popblk 16 := by decide
theorem test_decode_free : decodeWord 0b01010000000000000000#20 = .free 0 := by decide
theorem test_decode_occ : decodeWord 0b01100000000000000000#20 = .occ 0 := by decide
theorem test_decode_clear : decodeWord 0b01110000000000000000#20 = .clear 0 := by decide
theorem test_decode_crc32 : decodeWord 0b10000000000000001001#20 = .crc32 9 := by decide
theorem test_decode_cobsenc : decodeWord 0b10010000000000000100#20 = .cobsenc 4 := by decide
theorem test_decode_cobsdec : decodeWord 0b10100000000000000101#20 = .cobsdec 5 := by decide
theorem test_decode_reservedB : decodeWord 0b10110000000000000000#20 = .reservedB 0 := by decide
theorem test_decode_reservedC : decodeWord 0b11001000000000000000#20 = .reservedC 32768 := by decide
theorem test_decode_reservedD : decodeWord 0b11010000000000000001#20 = .reservedD 1 := by decide
theorem test_decode_reservedE : decodeWord 0b11100000000000000000#20 = .reservedE 0 := by decide
theorem test_decode_reservedF : decodeWord 0b11111111111111111111#20 = .reservedF 65535 := by decide

/-- 30_encoding.md R60: the port has 20 lines. -/
theorem test_decode_too_wide : decodeBits 0x100000 = .rejected .widerThanPort := by decide
theorem test_decode_bytes : decodeBytes [0x03#8, 0x00#8, 0x02#8] = .instr (.pushblk 3) := by decide
theorem test_decodeTableWord : decodeTableWord 20 0x40010 = some (.popblk 16) := by decide
theorem test_encode : encode (.crc32 9) = 0x80009#20 := by decide

/-! ### The commands -/

/-- V-ERR-14. -/
theorem test_nop_on_k : (command .k 0x00000 blank).kRsp = some ⟨.ok, 0⟩ := by decide

/-- V-Q-1 line 3: the slot, the index and the flag; `P_wdata` has 8 lines. -/
theorem test_push : (command .p 0x1FFFF twoQ 0x1A3).readMem 2 = 0xA3 ∧ (command .p 0x10000 twoQ 0xA3).wr = 3 ∧
    (command .p 0x10000 twoQ 0xA3).full = true ∧ (command .p 0x10000 twoQ 0xA3).pRsp = some ⟨.ok, 0⟩ := by decide
/-- V-Q-1 line 4: a full queue. -/
theorem test_push_full : (command .p 0x10000 fullQ 0xA5).pRsp = some ⟨.fail, 0⟩ ∧ (command .p 0x10000 fullQ 0xA5).wr = 0 ∧
    (command .p 0x10000 fullQ 0xA5).mem = fullQ.mem := by decide

/-- V-Q-4 line 3. -/
theorem test_pushblk : (after 3 (setInputs [.issue .p 0x20002 0] blockQ)).contents = [0x70, 0x10, 0x11] ∧
    (after 3 (setInputs [.issue .p 0x20002 0] blockQ)).wr = 1 ∧
    (after 3 (setInputs [.issue .p 0x20002 0] blockQ)).pRsp = some ⟨.ok, 0⟩ := by decide
/-- V-Q-4 lines 1 and 2. -/
theorem test_pushblk_bounds : (command .p 0x20003 blockQ).pRsp = some ⟨.fail, 0⟩ ∧
    (command .p 0x20003 blockQ).pInflight = none ∧ (command .p 0x20000 blockQ).pRsp = some ⟨.ok, 0⟩ := by decide

/-- V-Q-1 line 8. -/
theorem test_pop : (command .c 0x30000 fullQ).cRdata = 0xA2 ∧ (command .c 0x30000 fullQ).rd = 2 ∧
    (command .c 0x30000 fullQ).cRsp = some ⟨.ok, 0⟩ := by decide
/-- V-Q-1 line 11. -/
theorem test_pop_empty : (command .c 0x30000 emptyQ).cRsp = some ⟨.fail, 0⟩ ∧ (command .c 0x30000 emptyQ).rd = 2 := by decide

/-- V-Q-4 line 7: more asked for than queued. -/
theorem test_popblk : (after 3 (setInputs [.issue .c 0x4FFFF 0] twoQ)).cRsp = some ⟨.ok, 2⟩ ∧
    (after 3 (setInputs [.issue .c 0x4FFFF 0] twoQ)).readCbuf 0 = 0xA1 ∧
    (after 3 (setInputs [.issue .c 0x4FFFF 0] twoQ)).readCbuf 1 = 0xA2 ∧
    (after 3 (setInputs [.issue .c 0x4FFFF 0] twoQ)).empty = true := by decide
/-- V-Q-4 lines 5 and 8. -/
theorem test_popblk_nothing : (command .c 0x40000 twoQ).cRsp = some ⟨.ok, 0⟩ ∧
    (command .c 0x40005 emptyQ).cRsp = some ⟨.ok, 0⟩ := by decide

/-- V-Q-5: `RD = 3, WR = 1`. -/
theorem test_free : (command .p 0x50000 (queue 3 1 [])).pRsp = some ⟨.ok, 1⟩ := by decide
/-- V-ERR-5. -/
theorem test_free_on_k : (command .k 0x50000 twoQ).kRsp = some ⟨.illegal, 0⟩ := by decide

/-- V-Q-5: `RD = 3, WR = 1`. -/
theorem test_occ : (command .c 0x60000 (queue 3 1 [])).cRsp = some ⟨.ok, 2⟩ := by decide
/-- V-Q-1 line 5. -/
theorem test_occ_full : (command .c 0x60000 fullQ).cRsp = some ⟨.ok, 3⟩ := by decide

/-- V-Q-3 line 6: `RD` goes to `WR`. -/
theorem test_clear : (command .c 0x70000 fullQ).rd = 0 ∧ (command .c 0x70000 fullQ).wr = 0 ∧
    (command .c 0x70000 fullQ).empty = true := by decide
/-- V-ERR-4. -/
theorem test_clear_on_p : (command .p 0x70000 fullQ).pRsp = some ⟨.illegal, 0⟩ ∧ (command .p 0x70000 fullQ).rd = 1 := by decide

/-- V-CRC-2, through the command. -/
theorem test_crc32 : (command .k 0x80009 checkSpan).kCrc = 0xCBF43926#32 := by decide +kernel
/-- V-CRC-1, V-CRC-4, V-CRC-5, V-CRC-12. -/
theorem test_crc32_values : crc32 [] = 0#32 ∧ crc32 [0x61#8] = 0xE8B7BE43#32 ∧ crc32 [0xFF#8] = 0xFF000000#32 ∧
    crc32 [0xFF#8, 0xFF#8] = 0xFFFF0000#32 := by decide +kernel

/-- V-COBS-7, through the command. -/
theorem test_cobsenc : (command .b 0x90004 (inBin [0x11, 0x22, 0x00, 0x33])).bRsp = some ⟨.ok, 5⟩ ∧
    (List.range 5).map (command .b 0x90004 (inBin [0x11, 0x22, 0x00, 0x33])).readBout =
      [0x03#8, 0x11#8, 0x22#8, 0x02#8, 0x33#8] := by decide +kernel
/-- V-COBS-1, V-COBS-2 and the force-close of V-COBS-13's and V-COBS-15's kind. -/
theorem test_cobsenc_edges : cobsEncode [] = [0x01#8] ∧ cobsEncode [0x00#8] = [0x01#8, 0x01#8] ∧
    cobsEncode (List.replicate 254 0x01#8) = 0xFF#8 :: List.replicate 254 0x01#8 ++ [0x01#8] ∧
    cobsEncode (List.replicate 254 0x01#8 ++ [0x00#8]) =
      0xFF#8 :: List.replicate 254 0x01#8 ++ [0x01#8, 0x01#8] := by decide +kernel

/-- V-COBS-7 right to left, V-DEC-4. -/
theorem test_cobsdec : (command .b 0xA0005 (inBin [0x03, 0x11, 0x22, 0x02, 0x33])).bRsp = some ⟨.ok, 4⟩ ∧
    (List.range 4).map (command .b 0xA0005 (inBin [0x03, 0x11, 0x22, 0x02, 0x33])).readBout =
      [0x11#8, 0x22#8, 0x00#8, 0x33#8] ∧
    (command .b 0xA0003 (inBin [0x05, 0x11, 0x22])).bRsp = some ⟨.decerr, 0⟩ := by decide +kernel
/-- V-DEC-1, V-DEC-2, V-DEC-5, V-DEC-7, V-DEC-9, V-DEC-10, V-DEC-11, V-DEC-12. -/
theorem test_cobsdec_edges : cobsDecode [] = some [] ∧ cobsDecode [0x03#8, 0x11#8] = none ∧
    cobsDecode [0x02#8, 0x11#8, 0x05#8, 0x22#8] = none ∧ cobsDecode [0x01#8, 0x00#8] = none ∧
    cobsDecode [0x02#8, 0x00#8] = some [0x00#8] ∧
    cobsDecode (0xFF#8 :: List.replicate 254 0x01#8) = some (List.replicate 254 0x01#8) ∧
    cobsDecode (0xFF#8 :: List.replicate 253 0x01#8) = none ∧
    cobsDecode [0x01#8, 0x01#8, 0x01#8] = some [0x00#8, 0x00#8] := by decide +kernel

/-- V-ERR-1, V-ENC-13. -/
theorem test_reservedB : (command .p 0xB0000 twoQ).pRsp = some ⟨.illegal, 0⟩ ∧ (command .p 0xB0000 twoQ).mem = twoQ.mem := by decide
theorem test_reservedC : (command .c 0xC0000 twoQ).cRsp = some ⟨.illegal, 0⟩ := by decide
theorem test_reservedD : (command .k 0xD0000 twoQ).kRsp = some ⟨.illegal, 0⟩ := by decide
theorem test_reservedE : (command .b 0xE0000 twoQ).bRsp = some ⟨.illegal, 0⟩ := by decide
/-- V-ENC-14. -/
theorem test_reservedF : (command .p 0xFFFFF twoQ).pRsp = some ⟨.illegal, 0⟩ := by decide

/-! ### Steps around the commands -/

/-- Program P2, run C, on `CAPACITY = 4`: CLEAR between two element steps discards what was pushed before it. -/
theorem test_clear_inside_pushblk :
    (after 2 (setInputs [.issue .c 0x70000 0, .advance .p] pushingQ)).contents = [0x11] := by decide
/-- 30_encoding.md R71: a busy port ignores a command. -/
theorem test_busy_ignores : (command .p 0x10000 pushingQ 0xEE).lasting = pushingQ.lasting := by decide
/-- `WR` and `RD` wrap at a `CAPACITY` that is no power of two: V-Q-2 line 5. -/
theorem test_bump_three : bump 3 2 = 0 ∧ bump 3 1 = 2 := by decide
/-- 00_scope.md R7: `IDXW` of 2, 3, 4, 5, 32 and 65536 slots. -/
theorem test_idxw : [2, 3, 4, 5, 32, 65536].map (fun c => { params4 with capacity := c }.idxw) = [1, 2, 2, 3, 5, 16] := by decide
/-- 70_reset_and_hazards.md R152: reset inside a PUSHBLK. -/
theorem test_reset_inside_pushblk : (after 1 (setInputs [.reset] pushingQ)).pInflight = none ∧
    (after 1 (setInputs [.reset] pushingQ)).occ = 0 ∧ (after 1 (setInputs [.reset] pushingQ)).mem.cells = [] := by decide
/-- The host's word: `withFetchWord` puts FREE before the machine, and the next step answers 31 (P3 line 5). -/
theorem test_withFetchWord : (after 1 (State.reset.withFetchWord 24 0x50000)).pRsp = some ⟨.ok, 31⟩ := by decide
/-- 20_memory.md R53: the agent's write of `PBUF`. -/
theorem test_agent_writes : (after 1 (setInputs [.writePbuf 2 0x1FF] blank)).readPbuf 2 = 0xFF := by decide

/-- 30_encoding.md R68, the codes on the lines: OK with OCC's count (V-Q-1 line 5), FAIL (V-Q-1 line 4), DECERR (V-DEC-4),
ILLEGAL (V-ERR-5). -/
theorem test_outputs : (command .c 0x60000 fullQ).statusOut .c = 0b00#2 ∧ (command .c 0x60000 fullQ).countOut .c = 3#16 ∧
    (command .p 0x10000 fullQ).statusOut .p = 0b01#2 ∧
    (command .b 0xA0003 (inBin [0x05, 0x11, 0x22])).statusOut .b = 0b10#2 ∧
    (command .k 0x50000 twoQ).statusOut .k = 0b11#2 ∧ (command .k 0x50000 twoQ).countOut .k = 0#16 := by decide +kernel
/-- 20_memory.md R53: what the agents read after POPBLK (V-Q-4 line 6's kind) and after COBSENC (V-COBS-7). -/
theorem test_agent_reads : (after 3 (setInputs [.issue .c 0x40002 0] twoQ)).agentReadCbuf 1 = 0xA2 ∧
    (command .b 0x90004 (inBin [0x11, 0x22, 0x00, 0x33])).agentReadBout 3 = 0x02#8 := by decide +kernel

/-! ### The states above meet the invariant -/

/-- The invariant, clause by clause, as a check. -/
def check (s : State) : Bool :=
  s.params.ok && decide (s.rd < s.params.capacity) && decide (s.wr < s.params.capacity)
    && (s.mem.wf && s.mem.within s.params.capacity && s.mem.fits s.params.width)
    && (s.pbuf.wf && s.pbuf.within (s.params.capacity - 1) && s.pbuf.fits s.params.width)
    && (s.cbuf.wf && s.cbuf.within (s.params.capacity - 1) && s.cbuf.fits s.params.width)
    && (s.kbuf.wf && s.kbuf.within s.params.maxSpan) && (s.bin.wf && s.bin.within s.params.maxEncoded)
    && (s.bout.wf && s.bout.within s.params.maxEncoded)
    && decide (s.pWdata < 2 ^ s.params.width) && decide (s.cRdata < 2 ^ s.params.width)
    && (s.pInflight.all fun r =>
      decide (r.i < r.n) && decide (r.n ≤ s.params.capacity - 1) && decide (r.n - r.i ≤ s.free))
    && (s.cInflight.all fun r =>
      decide (r.i < r.count) && decide (r.count ≤ s.params.capacity - 1) && decide (r.count - r.i ≤ s.occ))
    && (List.range s.occ).all (fun k => (s.mem.lookup ((s.rd + k) % s.params.capacity)).isSome)
    && [s.pRsp, s.cRsp, s.kRsp, s.bRsp].all (fun o => o.isNone)

theorem inv_of_check {s : State} (h : check s = true) : s.Inv := by
  simp only [check, Bool.and_eq_true, decide_eq_true_eq, List.all_eq_true, Option.all_eq_true, List.mem_range,
    List.mem_cons, List.not_mem_nil, or_false, forall_eq_or_imp, forall_eq, Option.isNone_iff_eq_none] at h
  obtain ⟨⟨⟨⟨⟨⟨⟨⟨⟨⟨⟨⟨⟨⟨h1, h2⟩, h3⟩, h4⟩, h5⟩, h6⟩, h7⟩, h8⟩, h9⟩, h10⟩, h11⟩, h12⟩, h13⟩, h14⟩, h15⟩ := h
  refine ⟨h1, h2, h3, ⟨h4.1.1, h4.1.2, h4.2⟩, ⟨h5.1.1, h5.1.2, h5.2⟩, ⟨h6.1.1, h6.1.2, h6.2⟩, h7, h8, h9, h10, h11,
    fun r hr => ⟨(h12 r hr).1.1, (h12 r hr).1.2, (h12 r hr).2⟩,
    fun r hr => ⟨(h13 r hr).1.1, (h13 r hr).1.2, (h13 r hr).2⟩, h14, fun x r hr => ?_⟩
  obtain ⟨hp, hc, hk, hb⟩ := h15
  cases x <;> simp_all [State.rsp]

theorem inv_samples : ∀ s ∈ [blank, emptyQ, twoQ, fullQ, blockQ, pushingQ, pushingQ0, poppingQ, poppingQ0, checkSpan],
    s.Inv := by
  have h : [blank, emptyQ, twoQ, fullQ, blockQ, pushingQ, pushingQ0, poppingQ, poppingQ0, checkSpan].all check = true := by decide
  exact fun s hs => inv_of_check (List.all_eq_true.1 h s hs)

/-! ### Witnesses: for each obligation with hypotheses, values that meet them, clause by clause -/

theorem inv_blank : blank.Inv := inv_samples _ (by decide)
theorem inv_emptyQ : emptyQ.Inv := inv_samples _ (by decide)
theorem inv_twoQ : twoQ.Inv := inv_samples _ (by decide)
theorem inv_fullQ : fullQ.Inv := inv_samples _ (by decide)
theorem inv_blockQ : blockQ.Inv := inv_samples _ (by decide)
theorem inv_pushingQ : pushingQ.Inv := inv_samples _ (by decide)
theorem inv_poppingQ : poppingQ.Inv := inv_samples _ (by decide)

/-- The invariant says nothing of the inputs or of the port. -/
theorem inv_setInputs {s : State} (h : s.Inv) (ins : List Input) : (setInputs ins s).Inv := by
  obtain ⟨h1, h2, h3, h4, h5, h6, h7, h8, h9, h10, h11, h12, h13, h14, h15⟩ := h
  exact ⟨h1, h2, h3, h4, h5, h6, h7, h8, h9, h10, h11, h12, h13, h14, fun x r hr => h15 x r (by cases x <;> exact hr)⟩

theorem inv_onPort {s : State} (h : s.Inv) (x : Port) : (onPort x s).Inv := by
  obtain ⟨h1, h2, h3, h4, h5, h6, h7, h8, h9, h10, h11, h12, h13, h14, h15⟩ := h
  exact ⟨h1, h2, h3, h4, h5, h6, h7, h8, h9, h10, h11, h12, h13, h14, fun x r hr => h15 x r (by cases x <;> exact hr)⟩

theorem witness_TableWordsDecode : ∃ n : Nat, 2 ^ 20 ≤ n := ⟨2 ^ 20, by decide⟩

/-- Port `P` is idle while port `C` is busy. -/
theorem witness_IssuedWordRunsItsCommand : ∃ (s : State) (x : Port) (w : CmdWord) (v : Elem) (rest : List Input),
    s.inputs = .issue x w v :: rest ∧ s.resetSeen = true ∧ s.busy x = false ∧ x = .p ∧ s.busy .c = true :=
  ⟨setInputs [.issue .p 0x10000 0xA3] poppingQ, .p, 0x10000, 0xA3, [], by decide⟩

theorem witness_BusyPortIgnoresCommand : ∃ (s : State) (x : Port) (w : CmdWord) (v : Elem) (rest : List Input),
    s.inputs = .issue x w v :: rest ∧ s.resetSeen = true ∧ s.busy x = true :=
  ⟨setInputs [.issue .p 0x10000 0xA3] pushingQ, .p, 0x10000, 0xA3, [], by decide⟩

theorem witness_RefusedBeforeFirstReset : ∃ s : State, s.resetSeen = false ∧ ∀ rest, s.inputs ≠ .reset :: rest :=
  ⟨{ setInputs [.issue .p 0x10000 0xA3] blank with resetSeen := false }, rfl, fun _ h => by cases h⟩

theorem witness_StepKeepsInvariant : ∃ s t : State, s.Inv ∧ step s = .next t ∧ s.pInflight ≠ none :=
  ⟨setInputs [.advance .p] pushingQ, _, inv_setInputs inv_pushingQ _, rfl, by decide⟩

/-- The least and the greatest `CAPACITY`. -/
theorem witness_parameters : { params4 with capacity := 2 }.ok = true ∧ { params4 with capacity := 65536 }.ok = true := by
  decide

theorem witness_OccupancyInvariant : ∃ (p : Params) (ins : List Input) (k : Nat) (t : State), p.ok = true ∧
    Sys2Proof.core.run k (setInputs ins (State.resetWith p)) = .next t ∧ t.occ = 1 :=
  ⟨params4, [.issue .p 0x10000 0xA1], 1, _, by decide, rfl, by decide⟩

theorem witness_OccupancyInvariant_bounds : emptyQ.Inv ∧ emptyQ.occ = 0 ∧ fullQ.Inv ∧ fullQ.free = 0 :=
  ⟨inv_emptyQ, by decide, inv_fullQ, by decide⟩

theorem witness_IndexWidthIsLeast : ∃ (p : Params) (k : Nat), p.ok = true ∧ 1 ≤ k ∧ p.capacity ≤ 2 ^ k ∧ k = p.idxw :=
  ⟨{ params4 with capacity := 5 }, 3, by decide⟩

theorem witness_ParametersNeverChange : ∃ s t : State, step s = .next t := ⟨setInputs [.reset] fullQ, _, rfl⟩

theorem witness_FlagsFollowOccupancy : fullQ.Inv ∧ fullQ.full = true ∧ emptyQ.Inv ∧ emptyQ.empty = true :=
  ⟨inv_fullQ, by decide, inv_emptyQ, by decide⟩

theorem witness_PushAppendsOrFails :
    (onPort .c twoQ).port ≠ .p ∧
    (fullQ.port = .p ∧ bump fullQ.params.capacity fullQ.wr = fullQ.rd) ∧
    (twoQ.port = .p ∧ bump twoQ.params.capacity twoQ.wr ≠ twoQ.rd ∧ twoQ.Inv) :=
  ⟨by decide, by decide, by decide, by decide, inv_twoQ⟩

/-- `blockQ` has two free slots: 3, 0 and 2 elements. -/
theorem witness_PushblkCheckStep : blockQ.port = .p ∧ blockQ.free < (3 : Len).toNat ∧ (0 : Len).toNat = 0 ∧
    (2 : Len).toNat ≠ 0 ∧ (2 : Len).toNat = blockQ.free := by decide

/-- The last element step and one that is not, each scheduled and on an idle turn. -/
theorem witness_PushblkElementStep :
    ∀ s ∈ [setInputs [.advance .p] pushingQ, pushingQ, setInputs [.advance .p] pushingQ0, pushingQ0],
      s.elementPort = some .p ∧ s.resetSeen = true ∧
        (s.pInflight = some ⟨2, 1⟩ ∧ 1 + 1 = 2 ∨ s.pInflight = some ⟨2, 0⟩ ∧ 0 + 1 ≠ 2) := by decide

theorem witness_PopReturnsOldest : ∃ s : State, s.port = .c ∧ s.rd ≠ s.wr ∧ s.Inv :=
  ⟨onPort .c fullQ, by decide, by decide, inv_onPort inv_fullQ _⟩

theorem witness_PopOnEmptyFails : (onPort .c emptyQ).port = .c ∧ (onPort .c emptyQ).rd = (onPort .c emptyQ).wr := by
  decide

/-- Nothing asked for, nothing queued, and one element of two. -/
theorem witness_PopblkCountStep : (onPort .c twoQ).port = .c ∧ min (onPort .c twoQ).occ (0 : Len).toNat = 0 ∧
    min (onPort .c emptyQ).occ (65535 : Len).toNat = 0 ∧ min (onPort .c twoQ).occ (1 : Len).toNat ≠ 0 := by decide

/-- The last element step and one that is not, each scheduled and on an idle turn. -/
theorem witness_PopblkElementStep :
    ∀ s ∈ [setInputs [.advance .c] poppingQ, poppingQ, setInputs [.advance .c] poppingQ0, poppingQ0],
      s.elementPort = some .c ∧ s.resetSeen = true ∧
        (s.cInflight = some ⟨2, 1⟩ ∧ 1 + 1 = 2 ∨ s.cInflight = some ⟨2, 0⟩ ∧ 0 + 1 ≠ 2) := by decide

/-- For FreeReportsFreeSlots, OccReportsOccupied and FreeAndOccResultsAddUp. -/
theorem witness_queries : twoQ.Inv ∧ twoQ.port = .p ∧ (onPort .c fullQ).Inv ∧ (onPort .c fullQ).port = .c :=
  ⟨inv_twoQ, by decide, inv_onPort inv_fullQ _, by decide⟩

theorem witness_ClearEmptiesQueue : ∃ s : State, s.port = .c ∧ s.Inv ∧ s.full = true :=
  ⟨onPort .c fullQ, by decide, inv_onPort inv_fullQ _, by decide⟩

/-- The longest span. -/
theorem witness_Crc32AnswersChecksum : (onPort .k checkSpan).port = .k ∧
    (9 : Len).toNat = (onPort .k checkSpan).params.maxSpan := by decide

/-- Two states with different queues and different bytes after the span. -/
theorem witness_Crc32DependsOnSpanOnly : ∃ (len : Len) (s t s' t' : State), s.port = .k ∧ t.port = .k ∧
    len.toNat ≤ s.params.maxSpan ∧ len.toNat ≤ t.params.maxSpan ∧
    (∀ i, i < len.toNat → s.readKbuf i = t.readKbuf i) ∧ exec (.crc32 len) s = .next s' ∧
    exec (.crc32 len) t = .next t' ∧ s.readKbuf 1 ≠ t.readKbuf 1 :=
  ⟨1, onPort .k { checkSpan with wr := 1 }, onPort .k { blank with kbuf := ⟨7, [(0, 0x31), (1, 0xFF)]⟩ }, _, _,
    by decide, by decide, by decide, by decide, by decide, rfl, rfl, by decide⟩

theorem witness_Crc32SeesOneChangedByte : ∃ a b : Byte, a ≠ b := ⟨0x00, 0x80, by decide⟩

/-- The longest record. -/
theorem witness_CobsencWritesEncoding : ∃ (len : Len) (s : State) (out : List Byte), s.port = .b ∧
    len.toNat = s.params.maxRecord ∧ out = cobsEncode ((List.range len.toNat).map s.readBin) :=
  ⟨4, onPort .b (inBin [0x11, 0x22, 0x00, 0x33]), _, by decide, by decide, rfl⟩

/-- The longest span. -/
theorem witness_CobsdecWritesRecord : ∃ (len : Len) (s : State) (out : List Byte), s.port = .b ∧
    len.toNat = s.params.maxEncoded ∧ cobsDecode ((List.range len.toNat).map s.readBin) = some out :=
  ⟨5, onPort .b (inBin [0x03, 0x11, 0x22, 0x02, 0x33]), [0x11, 0x22, 0x00, 0x33], by decide, by decide, by decide⟩

theorem witness_CobsdecReportsMalformed : ∃ (len : Len) (s : State), s.port = .b ∧ len.toNat ≤ s.params.maxEncoded ∧
    cobsDecode ((List.range len.toNat).map s.readBin) = none :=
  ⟨3, onPort .b (inBin [0x05, 0x11, 0x22]), by decide, by decide, by decide⟩

theorem witness_CobsRoundTrip : ∃ (len m : Len) (s t u : State), s.params.ok = true ∧ s.port = .b ∧
    len.toNat ≤ s.params.maxRecord ∧ exec (.cobsenc len) s = .next t ∧ t.rsp .b = some ⟨.ok, m⟩ ∧
    u.params = s.params ∧ u.port = .b ∧ ∀ i, i < m.toNat → u.readBin i = t.readBout i :=
  ⟨4, 5, onPort .b (inBin [0x11, 0x22, 0x00, 0x33]), _, onPort .b (inBin [0x03, 0x11, 0x22, 0x02, 0x33]),
    by decide, by decide, by decide, rfl, by decide, by decide, by decide, by decide⟩

theorem witness_EncodedBytesAndLength : ∃ (record : List Byte) (p : Params), 0x00#8 ∉ record ∧
    record.length = p.maxRecord := ⟨[0x11, 0x22, 0x33, 0x44], params4, by decide⟩

theorem witness_DecodedRecordIsShorter : ∃ span out : List Byte, cobsDecode span = some out :=
  ⟨[0x02, 0x11], [0x11], by decide⟩

/-- A zero counter; one more byte claimed than remains; exactly the rest; one less than the rest. -/
theorem witness_DecoderTakesRunByRun : ∃ (code : Byte) (rest : List Byte), code = 0x03#8 ∧ code ≠ 0x00#8 ∧
    (rest.take 1).length < code.toNat - 1 ∧ code.toNat - 1 = (rest.take 2).length ∧ code.toNat - 1 < rest.length :=
  ⟨0x03, [0x11, 0x22, 0x01], by decide⟩

theorem witness_DecoderAcceptsMore : ∃ data : List Byte, data.length = 254 ∧ 0x00#8 ∉ data :=
  ⟨List.replicate 254 0x01, by decide +kernel⟩

/-- Two states with different queues and different bytes after the span. -/
theorem witness_CodecDependsOnSpanOnly : ∃ (len : Len) (i : Instr) (s t s' t' : State),
    (i = .cobsenc len ∨ i = .cobsdec len) ∧ s.params = t.params ∧ s.port = .b ∧ t.port = .b ∧
    i.lenFits s.params = true ∧ (∀ k, k < len.toNat → s.readBin k = t.readBin k) ∧ exec i s = .next s' ∧
    exec i t = .next t' ∧ (∃ r, s'.rsp .b = some r ∧ r.status = .ok ∧ 0 < r.count.toNat) :=
  ⟨2, .cobsdec 2, onPort .b (inBin [0x02, 0x11]), onPort .b { inBin [0x02, 0x11, 0x77] with wr := 1 }, _, _,
    by decide, by decide, by decide, by decide, by decide, by decide, rfl, rfl, ⟨.ok, 1⟩, by decide⟩

theorem witness_ReservedAnswersIllegal (len : Len) :
    Instr.reservedF len ∈ [Instr.reservedB len, .reservedC len, .reservedD len, .reservedE len, .reservedF len] := by simp

theorem witness_IllegalExactlyWhenIllFormed : twoQ.rsp twoQ.port = none ∧
    (Instr.pop 0).wellFormed twoQ.params twoQ.port = false ∧ (Instr.push 0).wellFormed twoQ.params twoQ.port = true := by
  decide

theorem witness_FailureLeavesStateUnchanged :
    (∃ (i : Instr) (s t : State) (r : Response), s.rsp s.port = none ∧ exec i s = .next t ∧ t.rsp s.port = some r ∧
      r.status = .fail) ∧
    (∃ (i : Instr) (s t : State) (r : Response), s.rsp s.port = none ∧ exec i s = .next t ∧ t.rsp s.port = some r ∧
      r.status = .illegal) ∧
    (∃ (i : Instr) (s t : State) (r : Response), s.rsp s.port = none ∧ exec i s = .next t ∧ t.rsp s.port = some r ∧
      r.status = .decerr) :=
  ⟨⟨.push 0, fullQ, _, ⟨.fail, 0⟩, by decide, rfl, by decide, rfl⟩,
    ⟨.pop 0, fullQ, _, ⟨.illegal, 0⟩, by decide, rfl, by decide, rfl⟩,
    ⟨.cobsdec 3, onPort .b (inBin [0x05, 0x11, 0x22]), _, ⟨.decerr, 0⟩, by decide, rfl, by decide, rfl⟩⟩

/-- One act of each port, an idle turn that takes an element step, and one that finds nothing in flight. -/
theorem witness_EachSideWritesItsOwn :
    (∃ s t : State, s.inputs = [.advance .p] ∧ s.stepIsOf .p = true ∧ step s = .next t) ∧
    (∃ s t : State, s.inputs = [.issue .c 0x30000 0] ∧ s.stepIsOf .c = true ∧ step s = .next t) ∧
    (∃ s t : State, s.inputs = [.writeKbuf 8 0x31] ∧ s.stepIsOf .k = true ∧ step s = .next t) ∧
    (∃ s t : State, s.inputs = [.writeBin 4 0x01] ∧ s.stepIsOf .b = true ∧ step s = .next t) ∧
    (∃ s t : State, s.inputs = [] ∧ s.stepIsOf .c = true ∧ step s = .next t) ∧
    (∃ s t : State, s.inputs = [] ∧ s.elementPort = none ∧ step s = .next t) :=
  ⟨⟨setInputs [.advance .p] pushingQ, _, by decide, by decide, rfl⟩,
    ⟨setInputs [.issue .c 0x30000 0] pushingQ, _, by decide, by decide, rfl⟩,
    ⟨setInputs [.writeKbuf 8 0x31] pushingQ, _, by decide, by decide, rfl⟩,
    ⟨setInputs [.writeBin 4 0x01] pushingQ, _, by decide, by decide, rfl⟩,
    ⟨poppingQ, _, by decide, by decide, rfl⟩, ⟨twoQ, _, by decide, by decide, rfl⟩⟩

theorem witness_OtherUnitsCommuteWithQueue : ∃ (s t u : State) (q o : Input), q.onQueue = true ∧ o.offQueue = true ∧
    Sys2Proof.core.run 2 (setInputs [q, o] s) = .next t ∧ Sys2Proof.core.run 2 (setInputs [o, q] s) = .next u :=
  ⟨pushingQ, _, _, .advance .p, .issue .b 0x90000 0, by decide, by decide, rfl, rfl⟩

theorem witness_PushAndPopCommute : twoQ.Inv ∧ twoQ.resetSeen = true ∧ twoQ.pInflight = none ∧ twoQ.cInflight = none ∧
    twoQ.full = false ∧ twoQ.empty = false := ⟨inv_twoQ, by decide⟩

theorem witness_SameCycleAtTheBounds :
    (fullQ.Inv ∧ fullQ.resetSeen = true ∧ fullQ.pInflight = none ∧ fullQ.cInflight = none ∧ fullQ.full = true) ∧
    (emptyQ.Inv ∧ emptyQ.resetSeen = true ∧ emptyQ.pInflight = none ∧ emptyQ.cInflight = none ∧ emptyQ.empty = true) :=
  ⟨⟨inv_fullQ, by decide⟩, ⟨inv_emptyQ, by decide⟩⟩

theorem witness_ElementStepsNeverBlocked : pushingQ.Inv ∧ pushingQ.pInflight = some ⟨2, 1⟩ ∧ poppingQ.Inv ∧
    poppingQ.cInflight = some ⟨2, 1⟩ := ⟨inv_pushingQ, by decide, inv_poppingQ, by decide⟩

/-- A command and an idle element step of each side of the queue, an act of another port, an idle turn of none. -/
theorem witness_CountsGoStaleOneWay :
    (∃ s t : State, s.Inv ∧ s.inputs ≠ [] ∧ s.stepIsOf .c = true ∧ step s = .next t) ∧
    (∃ s t : State, s.Inv ∧ s.inputs = [] ∧ s.stepIsOf .c = true ∧ step s = .next t) ∧
    (∃ s t : State, s.Inv ∧ s.inputs ≠ [] ∧ s.stepIsOf .p = true ∧ step s = .next t) ∧
    (∃ s t : State, s.Inv ∧ s.inputs = [] ∧ s.stepIsOf .p = true ∧ step s = .next t) ∧
    (∃ s t : State, s.Inv ∧ s.stepIsOf .k = true ∧ step s = .next t) ∧
    (∃ s t : State, s.Inv ∧ s.stepIsOf .b = true ∧ step s = .next t) ∧
    (∃ s t : State, s.Inv ∧ s.inputs = [] ∧ s.elementPort = none ∧ step s = .next t) :=
  ⟨⟨setInputs [.issue .c 0x30000 0] fullQ, _, inv_setInputs inv_fullQ _, by decide, by decide, rfl⟩,
    ⟨poppingQ, _, inv_poppingQ, by decide, by decide, rfl⟩,
    ⟨setInputs [.issue .p 0x10000 0xA3] twoQ, _, inv_setInputs inv_twoQ _, by decide, by decide, rfl⟩,
    ⟨pushingQ, _, inv_pushingQ, by decide, by decide, rfl⟩,
    ⟨setInputs [.writeKbuf 8 0x31] fullQ, _, inv_setInputs inv_fullQ _, by decide, rfl⟩,
    ⟨setInputs [.issue .b 0x90000 0] fullQ, _, inv_setInputs inv_fullQ _, by decide, rfl⟩,
    ⟨fullQ, _, inv_fullQ, by decide, by decide, rfl⟩⟩

theorem witness_QueueKeepsOrder : ∃ (k : Nat) (s t : State), s.Inv ∧ Sys2Proof.core.run k s = .next t ∧
    eventsOf k s = [.stored 0xA3, .returned 0xA1] :=
  ⟨2, setInputs [.issue .p 0x10000 0xA3, .issue .c 0x30000 0] twoQ, _, inv_setInputs inv_twoQ _, rfl, by decide⟩

theorem witness_ReturnedIsPrefixOfStored : ∃ (k : Nat) (s t : State), s.Inv ∧ s.empty = true ∧
    Sys2Proof.core.run k s = .next t ∧ QueueEvent.emptied ∉ eventsOf k s ∧ returnedBy (eventsOf k s) = [0xB1] :=
  ⟨2, setInputs [.issue .p 0x10000 0xB1, .issue .c 0x30000 0] emptyQ, _, inv_setInputs inv_emptyQ _, by decide, rfl,
    by decide, by decide⟩

theorem witness_CapacityBoundary : ∃ (s : State) (vs : List Elem) (m : Len), s.Inv ∧ s.resetSeen = true ∧
    s.pInflight = none ∧ s.empty = true ∧ vs.length = s.params.capacity ∧
    s.inputs = vs.map (fun v => Input.issue .p (encode (.push m)) v) :=
  ⟨setInputs ([0xA1, 0xA2, 0xA3, 0xA4].map (fun v => Input.issue .p (encode (.push 0)) v)) emptyQ,
    [0xA1, 0xA2, 0xA3, 0xA4], 0, inv_setInputs inv_emptyQ _, by decide⟩

/-- A block of every free slot. -/
theorem witness_PushblkAppendsBlock : ∃ (s : State) (len : Len) (v : Elem) (rest : List Input), s.Inv ∧
    s.resetSeen = true ∧ s.pInflight = none ∧ len.toNat = s.free ∧
    s.inputs = .issue .p (encode (.pushblk len)) v :: (List.replicate len.toNat (.advance .p) ++ rest) :=
  ⟨setInputs [.issue .p (encode (.pushblk 2)) 0, .advance .p, .advance .p, .advance .c] blockQ, 2, 0, [.advance .c],
    inv_setInputs inv_blockQ _, by decide⟩

theorem witness_PopblkTakesOldest : ∃ (s : State) (len : Len) (v : Elem) (rest : List Input), s.Inv ∧
    s.resetSeen = true ∧ s.cInflight = none ∧
    s.inputs = .issue .c (encode (.popblk len)) v :: (List.replicate (min s.occ len.toNat) (.advance .c) ++ rest) :=
  ⟨setInputs [.issue .c (encode (.popblk 65535)) 0, .advance .c, .advance .c, .advance .p] twoQ, 65535, 0, [.advance .p],
    inv_setInputs inv_twoQ _, by decide⟩

theorem witness_ClearInsidePushblk : ∃ (s : State) (r : PushInflight) (len : Len) (v : Elem), s.Inv ∧
    s.resetSeen = true ∧ s.cInflight = none ∧ s.pInflight = some r ∧
    s.inputs = .issue .c (encode (.clear len)) v :: List.replicate (r.n - r.i) (.advance .p) :=
  ⟨setInputs [.issue .c (encode (.clear 0)) 0, .advance .p] pushingQ, ⟨2, 1⟩, 0, 0, inv_setInputs inv_pushingQ _, by decide⟩

theorem witness_BlockCommandsRespond :
    (pushingQ.Inv ∧ pushingQ.resetSeen = true ∧ pushingQ.inputs = [] ∧ pushingQ.pInflight = some ⟨2, 1⟩) ∧
    (poppingQ.Inv ∧ poppingQ.resetSeen = true ∧ poppingQ.inputs = [] ∧ poppingQ.pInflight = none ∧
      poppingQ.cInflight = some ⟨2, 1⟩) := ⟨⟨inv_pushingQ, by decide⟩, ⟨inv_poppingQ, by decide⟩⟩

theorem witness_ResetFromAnyState : (setInputs [.reset, .advance .p] pushingQ).inputs = .reset :: [.advance .p] := rfl

/-- The last element of each buffer and the first index outside it, with and without a PUSHBLK in flight. -/
theorem witness_AgentWritesItsBuffer :
    ((setInputs [.writePbuf 2 0xFF] blockQ).inputs = .writePbuf 2 0xFF :: [] ∧ blockQ.resetSeen = true ∧
      2 < blockQ.params.capacity - 1 ∧ blockQ.pInflight = none) ∧
    (2 < pushingQ.params.capacity - 1 ∧ pushingQ.pInflight ≠ none ∧ pushingQ.resetSeen = true) ∧
    (blockQ.params.capacity - 1 ≤ 3 ∧ 8 < blockQ.params.maxSpan ∧ blockQ.params.maxSpan ≤ 9 ∧
      4 < blockQ.params.maxEncoded ∧ blockQ.params.maxEncoded ≤ 5) := by decide

/-- A response of each status, a port without one, and port `C` idle. -/
theorem witness_OutputsShowTheState :
    (command .c 0x60000 fullQ).rsp .c = some ⟨.ok, 3⟩ ∧ (command .p 0x10000 fullQ).rsp .p = some ⟨.fail, 0⟩ ∧
    (command .b 0xA0003 (inBin [0x05, 0x11, 0x22])).rsp .b = some ⟨.decerr, 0⟩ ∧
    (command .k 0x50000 twoQ).rsp .k = some ⟨.illegal, 0⟩ ∧ (command .c 0x60000 fullQ).rsp .p = none ∧
    fullQ.busy .c = false := by decide +kernel

end Sys2Proof.Tests
end

section
/-! PROOFS. The family of 00_scope.md: the parameters of R7, the index width and their constancy. -/

namespace Sys2Proof

/-- The constraints of 00_scope.md R7, as propositions. -/
theorem Params.ok_iff {p : Params} :
    p.ok = true ↔ 1 ≤ p.width ∧ 2 ≤ p.capacity ∧ p.capacity ≤ 65536 ∧ p.maxEncoded ≤ 65535 ∧ p.maxSpan ≤ 65535 := by
  simp only [Params.ok, Bool.and_eq_true, decide_eq_true_eq, and_assoc]

theorem Params.two_le_capacity {p : Params} (h : p.ok = true) : 2 ≤ p.capacity := by
  obtain ⟨-, hcap, -⟩ := Params.ok_iff.1 h
  exact hcap

/-- A width holds `CAPACITY` values exactly when it is at least `IDXW`; this is where `CAPACITY >= 2` is needed, since
`IDXW` is never 0. -/
theorem Params.idxw_le_iff {p : Params} (hcap : 2 ≤ p.capacity) (k : Nat) : p.idxw ≤ k ↔ p.capacity ≤ 2 ^ k := by
  have hlog : Nat.log2 (p.capacity - 1) < k ↔ p.capacity - 1 < 2 ^ k := Nat.log2_lt (by omega)
  rw [Params.idxw, Nat.succ_le_iff, hlog]
  omega

theorem Params.capacity_le_two_pow_idxw {p : Params} (h : p.ok = true) : p.capacity ≤ 2 ^ p.idxw :=
  (Params.idxw_le_iff (Params.two_le_capacity h) _).1 le_rfl

end Sys2Proof

namespace Sys2Proof.Machine

/-! ### The parameters through one step -/

@[simp] theorem pushblkElement_params (s : State) : (pushblkElement s).params = s.params := by
  obtain ⟨-, e⟩ | ⟨r, -, -, e⟩ | ⟨r, -, -, e⟩ := pushblkElement_cases s <;> simp [e]

@[simp] theorem popblkElement_params (s : State) : (popblkElement s).params = s.params := by
  obtain ⟨-, e⟩ | ⟨r, -, -, e⟩ | ⟨r, -, -, e⟩ := popblkElement_cases s <;> simp [e]

@[simp] theorem elementStep_params (x : Port) (s : State) : (elementStep x s).params = s.params := by
  cases x <;> simp

theorem exec_params {i : Instr} {s t : State} (h : exec i s = .next t) : t.params = s.params := by
  obtain ⟨hk, -⟩ | ⟨_, -, -, -, rfl⟩ | ⟨_, -, -, rfl⟩ | ⟨_, -, -, -, rfl⟩ | ⟨_, _, -, -, rfl⟩ | ⟨_, -, -, rfl⟩ :=
    exec_next_cases h
  case inl => exact hk.params
  all_goals simp

theorem step_params {s t : State} (h : step s = .next t) : t.params = s.params := by
  obtain ⟨-, -, rfl⟩ | ⟨x, w, v, rest, -, -, -, he⟩ | ⟨x, w, v, rest, -, -, -, rfl⟩ | ⟨x, rest, -, -, rfl⟩ |
    ⟨i, v, rest, -, -, -, rfl⟩ | ⟨i, v, rest, -, -, -, rfl⟩ | ⟨i, v, rest, -, -, -, rfl⟩ | ⟨rest, -, rfl⟩ :=
    step_next_cases h
  · -- an idle turn: an element step of `P`, of `C`, or nothing
    split_ifs <;> simp
  · -- a command is carried out
    rw [exec_params he, issued_params]
  · -- a command at a busy port is ignored
    simp
  · -- a scheduled element step
    simp
  · -- the producer agent writes `PBUF`
    split_ifs <;> simp
  · -- the checksum requester writes `KBUF`
    simp
  · -- the codec requester writes `BIN`
    simp
  · -- reset
    simp

/-! ### The indices fit `IDXW` -/

/-- Any number below `CAPACITY`, so each index under the invariant, has `IDXW` bits (10_state.md R22 to R24). -/
theorem State.Inv.lt_two_pow_idxw {s : State} (h : s.Inv) {a : Nat} (ha : a < s.params.capacity) :
    a < 2 ^ s.params.idxw :=
  ha.trans_le (Params.capacity_le_two_pow_idxw h.params_ok)

end Sys2Proof.Machine

namespace Sys2Proof.Proofs

open Sys2Proof Sys2Proof.Machine

/-- Settles O12: by `Params.idxw_le_iff`, the widths that hold `CAPACITY` values are those from `IDXW` on. -/
theorem indexWidthIsLeast : Obligations.IndexWidthIsLeast := by
  unfold Obligations.IndexWidthIsLeast
  constructor
  · intro p hp
    refine ⟨?_, Params.capacity_le_two_pow_idxw hp, fun k _ hk => ?_⟩
    · exact Nat.succ_pos _
    · exact (Params.idxw_le_iff (Params.two_le_capacity hp) k).2 hk
  · exact fun s hs => ⟨hs.lt_two_pow_idxw hs.rd_lt, hs.lt_two_pow_idxw hs.wr_lt⟩

/-- Settles O13, by the cases of one step. -/
theorem parametersNeverChange : Obligations.ParametersNeverChange := fun _ _ h => step_params h

end Sys2Proof.Proofs
end

section
/-! PROOFS. The family of 10_state.md: the invariant is kept by every update, every command and every step, and with it the
counts and the flags; the state after reset; what the codec depends on. -/

namespace Sys2Proof.Machine

/-! ### The counts under the invariant -/

theorem State.Inv.capacity_pos {s : State} (h : s.Inv) : 0 < s.params.capacity := Nat.zero_lt_of_lt h.rd_lt

/-- 10_state.md R27. -/
theorem State.Inv.occ_add_free {s : State} (h : s.Inv) : s.occ + s.free = s.params.capacity - 1 := by
  have hocc := occ_lt h.capacity_pos
  rw [State.free]
  omega

theorem State.Inv.full_iff_free {s : State} (h : s.Inv) : s.full = true ↔ s.free = 0 := by
  have hsum := h.occ_add_free
  have hcap := h.capacity_pos
  rw [full_iff h.rd_lt h.wr_lt]
  omega

/-- A successful PUSH step takes one free slot. -/
theorem State.Inv.counts_pushElem {s : State} (h : s.Inv) (v : Elem) (hf : 0 < s.free) :
    (pushElem v s).occ = s.occ + 1 ∧ (pushElem v s).free + 1 = s.free := by
  have hsum := h.occ_add_free
  have hocc := occ_pushElem v h.rd_lt h.wr_lt (by omega)
  rw [State.free, hocc, pushElem_params]
  omega

/-- A successful POP step gives one free slot back. -/
theorem State.Inv.counts_popElem {s : State} (h : s.Inv) (he : 0 < s.occ) :
    (popElem s).occ + 1 = s.occ ∧ (popElem s).free = s.free + 1 := by
  have hsum := h.occ_add_free
  have hocc := occ_popElem h.rd_lt h.wr_lt he
  rw [State.free, popElem_params]
  omega

/-! ### The elements read have `WIDTH` bits -/

theorem State.Inv.readMem_lt {s : State} (h : s.Inv) (i : Nat) : s.readMem i < 2 ^ s.params.width := by
  obtain ⟨-, -, hfits⟩ := h.mem_ok
  exact Memory.getD_lt hfits

theorem State.Inv.readPbuf_lt {s : State} (h : s.Inv) (i : Nat) : s.readPbuf i < 2 ^ s.params.width := by
  obtain ⟨-, -, hfits⟩ := h.pbuf_ok
  exact Memory.getD_lt hfits

/-! ### Each update of the state keeps the invariant -/

theorem State.Inv.setInputs {s : State} (h : s.Inv) (rest : List Input) : (Machine.setInputs rest s).Inv :=
  { h with }

theorem State.Inv.setPbuf {s : State} {m : Memory Elem} (h : s.Inv)
    (hm : m.wf = true ∧ m.within (s.params.capacity - 1) = true ∧ m.fits s.params.width = true) :
    (Machine.setPbuf m s).Inv :=
  { h with pbuf_ok := hm }

theorem State.Inv.setCbuf {s : State} {m : Memory Elem} (h : s.Inv)
    (hm : m.wf = true ∧ m.within (s.params.capacity - 1) = true ∧ m.fits s.params.width = true) :
    (Machine.setCbuf m s).Inv :=
  { h with cbuf_ok := hm }

theorem State.Inv.setKbuf {s : State} {m : Memory Byte} (h : s.Inv)
    (hm : m.wf = true ∧ m.within s.params.maxSpan = true) : (Machine.setKbuf m s).Inv :=
  { h with kbuf_ok := hm }

theorem State.Inv.setBin {s : State} {m : Memory Byte} (h : s.Inv)
    (hm : m.wf = true ∧ m.within s.params.maxEncoded = true) : (Machine.setBin m s).Inv :=
  { h with bin_ok := hm }

theorem State.Inv.setBout {s : State} {m : Memory Byte} (h : s.Inv)
    (hm : m.wf = true ∧ m.within s.params.maxEncoded = true) : (Machine.setBout m s).Inv :=
  { h with bout_ok := hm }

theorem State.Inv.setRdata {s : State} {v : Elem} (h : s.Inv) (hv : v < 2 ^ s.params.width) :
    (Machine.setRdata v s).Inv :=
  { h with cRdata_lt := hv }

theorem State.Inv.setCrc {s : State} (h : s.Inv) (c : Crc) : (Machine.setCrc c s).Inv := { h with }

theorem State.Inv.setPInflight {s : State} {p : Option PushInflight} (h : s.Inv)
    (hp : ∀ r, p = some r → r.i < r.n ∧ r.n ≤ s.params.capacity - 1 ∧ r.n - r.i ≤ s.free) :
    (Machine.setPInflight p s).Inv :=
  { h with push_inflight := hp }

theorem State.Inv.setCInflight {s : State} {c : Option PopInflight} (h : s.Inv)
    (hc : ∀ r, c = some r → r.i < r.count ∧ r.count ≤ s.params.capacity - 1 ∧ r.count - r.i ≤ s.occ) :
    (Machine.setCInflight c s).Inv :=
  { h with pop_inflight := hc }

/-- A new step takes every response back and draws `C_rdata` afresh. -/
theorem State.Inv.newStep {s : State} (h : s.Inv) : (Machine.newStep s).Inv :=
  { h with
    cRdata_lt := Nat.mod_lt _ (Nat.two_pow_pos _)
    failed_count := fun x r hr => by simp at hr }

/-- A command is taken: the latches `port` and `P_wdata` change besides. -/
theorem State.Inv.issued {s : State} (h : s.Inv) (x : Port) (v : Elem) (rest : List Input) :
    (Machine.issued x v rest s).Inv := by
  have hnew : (Machine.newStep { Machine.setInputs rest s with port := x }).Inv := State.Inv.newStep { h with }
  cases x with
  | p => exact { hnew with pWdata_lt := Nat.mod_lt _ (Nat.two_pow_pos _) }
  | c => exact hnew
  | k => exact hnew
  | b => exact hnew

/-- A response with a status other than OK must carry no count (30_encoding.md R67). -/
theorem State.Inv.respond {s : State} (h : s.Inv) (x : Port) {st : Status} {n : Nat} (hn : st ≠ .ok → n = 0) :
    (Machine.respond x st n s).Inv := by
  have hfailed : ∀ y r, (Machine.respond x st n s).rsp y = some r → r.status ≠ .ok → r.count = 0 := by
    intro y r hr hst
    by_cases hy : y = x
    · subst hy
      obtain rfl : (⟨st, BitVec.ofNat 16 n⟩ : Response) = r := by simpa using hr
      simp [hn hst]
    · rw [respond_rsp_other hy] at hr
      exact h.failed_count y r hr hst
  cases x with
  | p => exact { h with failed_count := hfailed }
  | c => exact { h with failed_count := hfailed, cRdata_lt := Nat.mod_lt _ (Nat.two_pow_pos _) }
  | k => exact { h with failed_count := hfailed }
  | b => exact { h with failed_count := hfailed }

/-- The success arm of PUSH, with room for it beside the PUSHBLK in flight: the slot written is the one that joins the
window. -/
theorem State.Inv.pushElem {s : State} {v : Elem} (h : s.Inv) (hv : v < 2 ^ s.params.width) (hf : 0 < s.free)
    (hroom : ∀ r, s.pInflight = some r → r.n - r.i < s.free) : (Machine.pushElem v s).Inv := by
  obtain ⟨hocc, hfree⟩ := h.counts_pushElem v hf
  obtain ⟨hwf, hwithin, hfits⟩ := h.mem_ok
  exact { h with
    wr_lt := bump_lt h.capacity_pos
    mem_ok := ⟨Memory.wf_write _ _ hwf, Memory.within_write _ h.wr_lt hwithin, Memory.fits_write _ hv hfits⟩
    push_inflight := fun r hr => by
      obtain ⟨hi, hn, -⟩ := h.push_inflight r hr
      have hr' := hroom r hr
      exact ⟨hi, hn, by omega⟩
    pop_inflight := fun r hr => by
      obtain ⟨hi, hn, hleft⟩ := h.pop_inflight r hr
      exact ⟨hi, hn, by omega⟩
    window_written := fun k hk => by
      simp only [pushElem_mem, pushElem_rd, pushElem_params]
      by_cases hlast : k = s.occ
      · rw [hlast, window_end h.rd_lt h.wr_lt]
        simp
      · have hk' : k < s.occ := by omega
        rw [Memory.lookup_write_other _ (window_ne_wr h.rd_lt h.wr_lt hk')]
        exact h.window_written k hk' }

/-- The success arm of POP, with enough left for the POPBLK in flight. -/
theorem State.Inv.popElem {s : State} (h : s.Inv) (he : 0 < s.occ)
    (hleft : ∀ r, s.cInflight = some r → r.count - r.i < s.occ) : (Machine.popElem s).Inv := by
  obtain ⟨hocc, hfree⟩ := h.counts_popElem he
  exact { h with
    rd_lt := bump_lt h.capacity_pos
    push_inflight := fun r hr => by
      obtain ⟨hi, hn, hroom⟩ := h.push_inflight r hr
      exact ⟨hi, hn, by omega⟩
    pop_inflight := fun r hr => by
      obtain ⟨hi, hn, -⟩ := h.pop_inflight r hr
      have hr' := hleft r hr
      exact ⟨hi, hn, by omega⟩
    window_written := fun k hk => by
      simp only [popElem_mem, popElem_rd, popElem_params, window_next]
      exact h.window_written (k + 1) (by omega) }

/-- CLEAR needs that no POPBLK is in flight: its elements would be gone. -/
theorem State.Inv.discardAll {s : State} (h : s.Inv) (hc : s.cInflight = none) : (Machine.discardAll s).Inv :=
  { h with
    rd_lt := h.wr_lt
    push_inflight := fun r hr => by
      obtain ⟨hi, hn, -⟩ := h.push_inflight r hr
      refine ⟨hi, hn, ?_⟩
      rw [State.free, discardAll_occ, discardAll_params]
      omega
    pop_inflight := fun r hr => by simp [hc] at hr
    window_written := fun k hk => by simp at hk }

theorem State.Inv.resetStep {s : State} (h : s.Inv) : (Machine.resetStep s).Inv := by
  have hocc : (Machine.resetStep s).occ = 0 := occ_of_rd_eq_wr rfl
  exact { h.newStep with
    rd_lt := h.capacity_pos
    wr_lt := h.capacity_pos
    mem_ok := by simp
    pbuf_ok := by simp
    cbuf_ok := by simp
    kbuf_ok := by simp
    bin_ok := by simp
    bout_ok := by simp
    push_inflight := fun r hr => by simp at hr
    pop_inflight := fun r hr => by simp at hr
    window_written := fun k hk => absurd hk (by simp [hocc]) }

/-- The state after reset, with whatever is to come. -/
theorem inv_setInputs_resetWith {p : Params} (hp : p.ok = true) (ins : List Input) :
    (setInputs ins (State.resetWith p)).Inv := by
  have hocc : (setInputs ins (State.resetWith p)).occ = 0 := occ_of_rd_eq_wr rfl
  have hcap : 0 < p.capacity := Nat.zero_lt_of_lt (Params.two_le_capacity hp)
  exact {
    params_ok := hp
    rd_lt := hcap
    wr_lt := hcap
    mem_ok := ⟨rfl, rfl, rfl⟩
    pbuf_ok := ⟨rfl, rfl, rfl⟩
    cbuf_ok := ⟨rfl, rfl, rfl⟩
    kbuf_ok := ⟨rfl, rfl⟩
    bin_ok := ⟨rfl, rfl⟩
    bout_ok := ⟨rfl, rfl⟩
    pWdata_lt := Nat.two_pow_pos _
    cRdata_lt := Nat.mod_lt _ (Nat.two_pow_pos _)
    push_inflight := nofun
    pop_inflight := nofun
    window_written := fun k hk => absurd hk (by simp [hocc])
    failed_count := fun x r hr => by cases x <;> cases hr }

/-! ### The length of what the codec writes -/

/-- A record of `len` bytes is encoded in `len + 1` bytes and one for each forced close (42_cobs.md R115). -/
theorem length_encodeFrom {code : Nat} {run : List Byte} (hcode : code = run.length + 1) (bs : List Byte) :
    (encodeFrom run bs).length = run.length + bs.length + 1 + forceClosesFrom code bs := by
  induction bs generalizing code run with
  | nil => simp [encodeFrom, runBytes, forceClosesFrom]
  | cons b bs ih =>
    rw [encodeFrom, forceClosesFrom]
    have hnew := ih (code := 1) (run := []) rfl
    by_cases hb : b = 0#8
    · rw [if_pos hb, if_pos hb]
      simp only [runBytes, List.length_append, List.length_cons, hnew, List.length_nil]
      omega
    · by_cases hforce : run.length + 1 = 254
      · rw [if_neg hb, if_pos hforce, if_neg hb, if_pos (by omega)]
        simp only [runBytes, List.length_append, List.length_cons, hnew, List.length_nil]
        omega
      · have hrun := ih (code := code + 1) (run := run ++ [b]) (by simp [hcode])
        rw [if_neg hb, if_neg hforce, if_neg hb, if_neg (by omega), hrun]
        simp only [List.length_append, List.length_cons, List.length_nil]
        omega

/-- Each forced close takes 254 bytes of the record (42_cobs.md R115). -/
theorem forceClosesFrom_le (code : Nat) (bs : List Byte) : forceClosesFrom code bs ≤ (code + bs.length - 1) / 254 := by
  induction bs generalizing code with
  | nil => exact Nat.zero_le _
  | cons b bs ih =>
    rw [forceClosesFrom, List.length_cons]
    have hnew := ih 1
    by_cases hb : b = 0#8
    · rw [if_pos hb]
      omega
    · by_cases hforce : code + 1 = 255
      · rw [if_neg hb, if_pos hforce]
        omega
      · rw [if_neg hb, if_neg hforce]
        have hrun := ih (code + 1)
        omega

/-- `MAX_ENCODED` bytes hold the encoding of a record within `MAX_RECORD` (42_cobs.md R115). -/
theorem length_cobsEncode_le {p : Params} {record : List Byte} (h : record.length ≤ p.maxRecord) :
    (cobsEncode record).length ≤ p.maxEncoded := by
  have hforce := forceClosesFrom_le 1 record
  have hlimit : record.length / 254 ≤ p.maxRecord / 254 := Nat.div_le_div_right h
  rw [cobsEncode_eq_encodeFrom, length_encodeFrom (code := 1) rfl, List.length_nil, Params.maxEncoded]
  omega

/-- Every run loses its counter byte, and only a run with more after it gives a zero (42_cobs.md R121). -/
theorem length_decodeRuns_le {turns : Nat} {l out : List Byte} (h : decodeRuns turns l = some out) :
    out.length ≤ l.length - 1 := by
  induction turns generalizing l out with
  | zero =>
    cases l with
    | nil => cases h; exact Nat.le_refl _
    | cons code rest => cases h
  | succ turns ih =>
    cases l with
    | nil => cases h; exact Nat.le_refl _
    | cons code rest =>
      simp only [decodeRuns, Option.ite_none_left_eq_some, Option.map_eq_some_iff] at h
      obtain ⟨-, hfit, tail, htail, rfl⟩ := h
      have htail := ih htail
      simp only [List.length_drop] at htail
      simp only [List.length_append, List.length_take, List.length_cons]
      by_cases hmore : rest.drop (code.toNat - 1) = []
      · have hlen := List.drop_eq_nil_iff.1 hmore
        simp only [hmore, ne_eq, not_true_eq_false, and_false, if_false, List.length_nil]
        omega
      · have hlen := mt List.drop_eq_nil_iff.2 hmore
        split <;> simp only [List.length_cons, List.length_nil] <;> omega

@[simp] theorem length_binSpan (s : State) (n : Nat) : (binSpan s n).length = n := by simp [binSpan]

theorem length_cobsDecode_binSpan_le {s : State} {n : Nat} {out : List Byte}
    (h : cobsDecode (binSpan s n) = some out) : out.length ≤ n := by
  have hlen := length_decodeRuns_le h
  rw [length_binSpan] at hlen
  omega

/-! ### Each command keeps the invariant -/

theorem State.Inv.writeBout {s : State} (h : s.Inv) {out : List Byte} (hlen : out.length ≤ s.params.maxEncoded) :
    (Machine.setBout (s.bout.writeSpan 0 out) s).Inv := by
  obtain ⟨hwf, hwithin⟩ := h.bout_ok
  exact h.setBout ⟨Memory.wf_writeSpan 0 out hwf, Memory.within_writeSpan out (by omega) hwithin⟩

theorem State.Inv.carryOut {s : State} (h : s.Inv) {ports : List Port} {ok : Bool} {rule : State → State}
    (hrule : s.port ∈ ports → ok = true → (rule s).Inv) : (Machine.carryOut ports ok rule s).Inv := by
  obtain ⟨hport, hok, e⟩ | ⟨-, e⟩ := carryOut_cases ports ok rule s <;> rw [e]
  · exact hrule hport hok
  · exact h.respond _ fun _ => rfl

theorem State.Inv.pushRule {s : State} (h : s.Inv) (hidle : s.pInflight = none) : (Machine.pushRule s).Inv := by
  unfold Machine.pushRule
  split
  · exact h.respond _ fun _ => rfl
  · next hfull =>
    have hf : 0 < s.free := Nat.pos_of_ne_zero (mt h.full_iff_free.2 hfull)
    exact (h.pushElem h.pWdata_lt hf (by simp [hidle])).respond _ fun _ => rfl

/-- The check step lets in only a block that fits (40_fifo.md R82). -/
theorem State.Inv.pushblkRule {s : State} (h : s.Inv) (n : Nat) : (Machine.pushblkRule n s).Inv := by
  have hsum := h.occ_add_free
  unfold Machine.pushblkRule
  split
  · exact h.respond _ fun _ => rfl
  · split
    · exact h.respond _ fun _ => rfl
    · refine h.setPInflight fun r hr => ?_
      cases hr
      dsimp only
      omega

theorem State.Inv.popRule {s : State} (h : s.Inv) (hidle : s.cInflight = none) : (Machine.popRule s).Inv := by
  unfold Machine.popRule
  split
  · exact h.respond _ fun _ => rfl
  · next hempty =>
    have he : 0 < s.occ := Nat.pos_of_ne_zero (mt (empty_iff h.rd_lt h.wr_lt).2 hempty)
    have hpop := (h.popElem he (by simp [hidle])).respond s.port (st := .ok) (n := 0) fun _ => rfl
    exact hpop.setRdata (by simpa using h.readMem_lt s.rd)

/-- The count step asks for no more than the queue holds (40_fifo.md R84). -/
theorem State.Inv.popblkRule {s : State} (h : s.Inv) (maxLen : Nat) : (Machine.popblkRule maxLen s).Inv := by
  have hsum := h.occ_add_free
  unfold Machine.popblkRule
  split
  · exact h.respond _ fun _ => rfl
  · refine h.setCInflight fun r hr => ?_
    cases hr
    dsimp only
    omega

theorem State.Inv.clearRule {s : State} (h : s.Inv) (hidle : s.cInflight = none) : (Machine.clearRule s).Inv :=
  (h.discardAll hidle).respond _ fun _ => rfl

theorem State.Inv.crc32Rule {s : State} (h : s.Inv) (n : Nat) : (Machine.crc32Rule n s).Inv :=
  (h.respond _ fun _ => rfl).setCrc _

theorem State.Inv.cobsencRule {s : State} (h : s.Inv) {n : Nat} (hn : n ≤ s.params.maxRecord) :
    (Machine.cobsencRule n s).Inv :=
  (h.writeBout (length_cobsEncode_le (by simpa using hn))).respond _ fun hst => absurd rfl hst

theorem State.Inv.cobsdecRule {s : State} (h : s.Inv) {n : Nat} (hn : n ≤ s.params.maxEncoded) :
    (Machine.cobsdecRule n s).Inv := by
  unfold Machine.cobsdecRule
  split
  · exact (h.setBout ⟨rfl, rfl⟩).respond _ fun _ => rfl
  · next out hout =>
    have hlen : out.length ≤ s.params.maxEncoded := (length_cobsDecode_binSpan_le hout).trans hn
    exact (h.writeBout hlen).respond _ fun hst => absurd rfl hst

/-- A command carried out on an idle port keeps the invariant. -/
theorem exec_inv {i : Instr} {s t : State} (h : s.Inv) (hidle : s.busy s.port = false) (he : exec i s = .next t) :
    t.Inv := by
  have hp : s.port ∈ [Port.p] → s.pInflight = none := fun hport => by
    simpa [List.mem_singleton.1 hport, State.busy] using hidle
  have hc : s.port ∈ [Port.c] → s.cInflight = none := fun hport => by
    simpa [List.mem_singleton.1 hport, State.busy] using hidle
  cases i <;> cases he
  case nop => exact h.carryOut fun _ _ => h.respond _ fun _ => rfl
  case push => exact h.carryOut fun hport _ => h.pushRule (hp hport)
  case pushblk => exact h.carryOut fun _ _ => h.pushblkRule _
  case pop => exact h.carryOut fun hport _ => h.popRule (hc hport)
  case popblk => exact h.carryOut fun _ _ => h.popblkRule _
  case free => exact h.carryOut fun _ _ => h.respond _ fun hst => absurd rfl hst
  case occ => exact h.carryOut fun _ _ => h.respond _ fun hst => absurd rfl hst
  case clear => exact h.carryOut fun hport _ => h.clearRule (hc hport)
  case crc32 => exact h.carryOut fun _ _ => h.crc32Rule _
  case cobsenc => exact h.carryOut fun _ hlen => h.cobsencRule (of_decide_eq_true hlen)
  case cobsdec => exact h.carryOut fun _ hlen => h.cobsdecRule (of_decide_eq_true hlen)
  case reservedB | reservedC | reservedD | reservedE | reservedF => exact h.respond _ fun _ => rfl

/-! ### Each step keeps the invariant -/

/-- One element of the PUSHBLK in flight, which is then over or has one element less to go. -/
theorem State.Inv.pushBlockElem {s : State} (h : s.Inv) {r : PushInflight} (hr : s.pInflight = some r)
    {p : Option PushInflight} (hp : ∀ q, p = some q → q = ⟨r.n, r.i + 1⟩ ∧ r.i + 1 ≠ r.n) :
    (Machine.setPInflight p (Machine.pushElem (s.readPbuf r.i) s)).Inv := by
  obtain ⟨hi, hn, hroom⟩ := h.push_inflight r hr
  have hf : 0 < s.free := by omega
  have hset : (Machine.setPInflight p s).Inv := h.setPInflight fun q hq => by
    obtain ⟨rfl, hmore⟩ := hp q hq
    dsimp only
    omega
  refine hset.pushElem (h.readPbuf_lt r.i) hf fun q hq => ?_
  obtain ⟨rfl, -⟩ := hp q hq
  change r.n - (r.i + 1) < s.free
  omega

/-- One element of the POPBLK in flight, which is then over or has one element less to go. -/
theorem State.Inv.popBlockElem {s : State} (h : s.Inv) {r : PopInflight} (hr : s.cInflight = some r)
    {c : Option PopInflight} (hc : ∀ q, c = some q → q = ⟨r.count, r.i + 1⟩ ∧ r.i + 1 ≠ r.count) :
    (Machine.setCInflight c (Machine.popElem (Machine.setCbuf (s.cbuf.write r.i (s.readMem s.rd)) s))).Inv := by
  obtain ⟨hi, hn, hleft⟩ := h.pop_inflight r hr
  obtain ⟨hwf, hwithin, hfits⟩ := h.cbuf_ok
  have he : 0 < s.occ := by omega
  have hdepth : r.i < s.params.capacity - 1 := by omega
  have hset : (Machine.setCInflight c s).Inv := h.setCInflight fun q hq => by
    obtain ⟨rfl, hmore⟩ := hc q hq
    dsimp only
    omega
  have hstored := hset.setCbuf ⟨Memory.wf_write r.i _ hwf, Memory.within_write _ hdepth hwithin,
    Memory.fits_write r.i (h.readMem_lt s.rd) hfits⟩
  refine hstored.popElem he fun q hq => ?_
  obtain ⟨rfl, -⟩ := hc q hq
  change r.count - (r.i + 1) < s.occ
  omega

theorem pushblkElement_inv {s : State} (h : s.Inv) : (pushblkElement s).Inv := by
  obtain ⟨-, e⟩ | ⟨r, hr, -, e⟩ | ⟨r, hr, hmore, e⟩ := pushblkElement_cases s <;> rw [e]
  · exact h
  · exact (h.pushBlockElem hr (p := none) nofun).respond _ fun _ => rfl
  · exact h.pushBlockElem hr fun q hq => ⟨(Option.some.inj hq).symm, hmore⟩

theorem popblkElement_inv {s : State} (h : s.Inv) : (popblkElement s).Inv := by
  obtain ⟨-, e⟩ | ⟨r, hr, -, e⟩ | ⟨r, hr, hmore, e⟩ := popblkElement_cases s <;> rw [e]
  · exact h
  · exact (h.popBlockElem hr (c := none) nofun).respond _ fun hst => absurd rfl hst
  · exact h.popBlockElem hr fun q hq => ⟨(Option.some.inj hq).symm, hmore⟩

theorem elementStep_inv {s : State} (h : s.Inv) (x : Port) : (elementStep x s).Inv := by
  cases x with
  | p => exact pushblkElement_inv h
  | c => exact popblkElement_inv h
  | k => exact h
  | b => exact h

theorem step_inv {s t : State} (h : s.Inv) (hstep : step s = .next t) : t.Inv := by
  have hnew := fun rest => (h.setInputs rest).newStep
  obtain ⟨-, -, rfl⟩ | ⟨x, w, v, rest, -, -, hidle, he⟩ | ⟨x, w, v, rest, -, -, -, rfl⟩ | ⟨x, rest, -, -, rfl⟩ |
    ⟨i, v, rest, -, -, hi, rfl⟩ | ⟨i, v, rest, -, -, hi, rfl⟩ | ⟨i, v, rest, -, -, hi, rfl⟩ | ⟨rest, -, rfl⟩ :=
    step_next_cases hstep
  · -- an idle turn
    split_ifs
    · exact elementStep_inv h.newStep .p
    · exact elementStep_inv h.newStep .c
    · exact h.newStep
  · -- a command is carried out on an idle port
    refine exec_inv (h.issued x v rest) ?_ he
    rw [issued_port]
    cases x <;> exact hidle
  · -- a command at a busy port is ignored
    exact hnew rest
  · -- a scheduled element step
    exact elementStep_inv (hnew rest) x
  · -- the producer agent writes `PBUF`
    obtain ⟨hwf, hwithin, hfits⟩ := h.pbuf_ok
    split_ifs
    · exact (hnew rest).setPbuf ⟨rfl, rfl, rfl⟩
    · exact (hnew rest).setPbuf ⟨Memory.wf_write _ _ hwf, Memory.within_write _ hi hwithin,
        Memory.fits_write _ (Nat.mod_lt _ (Nat.two_pow_pos _)) hfits⟩
  · -- the checksum requester writes `KBUF`
    obtain ⟨hwf, hwithin⟩ := h.kbuf_ok
    exact (hnew rest).setKbuf ⟨Memory.wf_write _ _ hwf, Memory.within_write _ hi hwithin⟩
  · -- the codec requester writes `BIN`
    obtain ⟨hwf, hwithin⟩ := h.bin_ok
    exact (hnew rest).setBin ⟨Memory.wf_write _ _ hwf, Memory.within_write _ hi hwithin⟩
  · -- reset
    exact (h.setInputs rest).resetStep

/-- What holds at first and is kept by every step holds after every run. -/
theorem run_induction {P : State → Prop} (hstep : ∀ s t, P s → step s = .next t → P t) {k : Nat} {s t : State}
    (hs : P s) (hrun : Sys2Proof.core.run k s = .next t) : P t := by
  induction k generalizing s with
  | zero => cases hrun; exact hs
  | succ k ih =>
    simp only [Host.Core.run] at hrun
    split at hrun
    · next u hu => exact ih (hstep s u hs hu) hrun
    · cases hrun
    · cases hrun

theorem run_inv {k : Nat} {s t : State} (h : s.Inv) (hrun : Sys2Proof.core.run k s = .next t) : t.Inv :=
  run_induction (fun _ _ => step_inv) h hrun

theorem run_params {k : Nat} {s t : State} (hrun : Sys2Proof.core.run k s = .next t) : t.params = s.params :=
  run_induction (P := fun u => u.params = s.params) (fun _ _ hu hstep => (step_params hstep).trans hu) rfl hrun

/-! ### What the codec's answers depend on (10_state.md R36) -/

/-- Port `B` shows the same answer in both states and, where it is OK, `BOUT` holds the same bytes up to its count. -/
def SameCodecAnswer (s t : State) : Prop :=
  s.rsp .b = t.rsp .b ∧
    ∀ r, s.rsp .b = some r → r.status = .ok → ∀ k, k < r.count.toNat → s.readBout k = t.readBout k

theorem binSpan_congr {s t : State} {n : Nat} (h : ∀ k, k < n → s.readBin k = t.readBin k) : binSpan s n = binSpan t n :=
  List.map_congr_left fun k hk => h k (List.mem_range.1 hk)

/-- The same bytes written and announced from two states. The count has 16 bits, so it claims no more than was written. -/
theorem sameCodecAnswer_writeBout (out : List Byte) (s t : State) :
    SameCodecAnswer (respond .b .ok out.length (setBout (s.bout.writeSpan 0 out) s))
      (respond .b .ok out.length (setBout (t.bout.writeSpan 0 out) t)) := by
  refine ⟨by simp, fun r hr _ k hk => ?_⟩
  obtain rfl : (⟨.ok, BitVec.ofNat 16 out.length⟩ : Response) = r := by simpa using hr
  have hwritten : k < out.length := by
    rw [BitVec.toNat_ofNat] at hk
    exact hk.trans_le (Nat.mod_le _ _)
  simp only [respond_readBout, setBout_writeSpan_readBout, List.getElem?_eq_getElem hwritten, Option.getD_some]

theorem sameCodecAnswer_cobsencRule {n : Nat} {s t : State} (hs : s.port = .b) (ht : t.port = .b)
    (h : binSpan s n = binSpan t n) : SameCodecAnswer (cobsencRule n s) (cobsencRule n t) := by
  rw [cobsencRule, cobsencRule, hs, ht, h]
  exact sameCodecAnswer_writeBout _ s t

theorem sameCodecAnswer_cobsdecRule {n : Nat} {s t : State} (hs : s.port = .b) (ht : t.port = .b)
    (h : binSpan s n = binSpan t n) : SameCodecAnswer (cobsdecRule n s) (cobsdecRule n t) := by
  rw [cobsdecRule, cobsdecRule, hs, ht, h]
  cases cobsDecode (binSpan t n) with
  | none =>
    refine ⟨by simp, fun r hr hst => ?_⟩
    obtain rfl : (⟨.decerr, 0⟩ : Response) = r := by simpa using hr
    cases hst
  | some out => exact sameCodecAnswer_writeBout out s t

theorem exec_cobsenc_accepted {len : Len} {s : State} (hs : s.port = .b)
    (hlen : (Instr.cobsenc len).lenFits s.params = true) :
    exec (.cobsenc len) s = .next (cobsencRule (count len) s) :=
  congrArg Host.Outcome.next (carryOut_accepted (by rw [hs]; exact hlen))

theorem exec_cobsdec_accepted {len : Len} {s : State} (hs : s.port = .b)
    (hlen : (Instr.cobsdec len).lenFits s.params = true) :
    exec (.cobsdec len) s = .next (cobsdecRule (count len) s) :=
  congrArg Host.Outcome.next (carryOut_accepted (by rw [hs]; exact hlen))

end Sys2Proof.Machine

namespace Sys2Proof.Proofs

open Sys2Proof Sys2Proof.Machine

/-- Settles O9, by the cases of one step: the invariant is kept by each command on an idle port and by each element step. -/
theorem stepKeepsInvariant : Obligations.StepKeepsInvariant := fun _ _ h hstep => step_inv h hstep

/-- Settles O11: the two counts add up under the invariant, which every run from reset keeps. -/
theorem occupancyInvariant : Obligations.OccupancyInvariant := by
  unfold Obligations.OccupancyInvariant
  have hcounts : ∀ s : State, s.Inv → 0 ≤ s.occ ∧ s.occ ≤ s.params.capacity - 1 ∧ 0 ≤ s.free ∧
      s.free ≤ s.params.capacity - 1 ∧ s.occ + s.free = s.params.capacity - 1 := by
    intro s h
    have hsum := h.occ_add_free
    omega
  refine ⟨fun p ins k t hp hrun => ?_, hcounts⟩
  have hparams : t.params = p := run_params hrun
  exact hparams ▸ hcounts t (run_inv (inv_setInputs_resetWith hp ins) hrun)

/-- Settles O14: `full` is `occ = CAPACITY-1` and `empty` is `occ = 0`, which `CAPACITY >= 2` keeps apart. -/
theorem flagsFollowOccupancy : Obligations.FlagsFollowOccupancy := by
  unfold Obligations.FlagsFollowOccupancy
  intro s h
  have hsum := h.occ_add_free
  have hcap := Params.two_le_capacity h.params_ok
  rw [h.full_iff_free, empty_iff h.rd_lt h.wr_lt]
  omega

/-- Settles O40: both commands answer from `BIN[0..len-1]`, and the bytes they count are the bytes they wrote. -/
theorem codecDependsOnSpanOnly : Obligations.CodecDependsOnSpanOnly := by
  unfold Obligations.CodecDependsOnSpanOnly
  intro len i s t s' t' hi hparams hs ht hlen hspan hes het
  have hbin : binSpan s (count len) = binSpan t (count len) := binSpan_congr hspan
  obtain rfl | rfl := hi
  · rw [exec_cobsenc_accepted hs hlen] at hes
    rw [exec_cobsenc_accepted ht (hparams ▸ hlen)] at het
    cases hes
    cases het
    exact sameCodecAnswer_cobsencRule hs ht hbin
  · rw [exec_cobsdec_accepted hs hlen] at hes
    rw [exec_cobsdec_accepted ht (hparams ▸ hlen)] at het
    cases hes
    cases het
    exact sameCodecAnswer_cobsdecRule hs ht hbin

/-- Settles O10: nothing is written, in flight or answered, and `State.reset` is one choice of the parameters. -/
theorem resetMeetsInvariant : Obligations.ResetMeetsInvariant :=
  ⟨fun _ ins hp => inv_setInputs_resetWith hp ins, inv_setInputs_resetWith (p := Config.resetParams) (by decide) []⟩

/-- Settles O57: with both indices 0 the queue is empty, so not full, and every other item is a field of the state. -/
theorem stateAfterReset : Obligations.StateAfterReset := by
  unfold Obligations.StateAfterReset
  rintro p hp s rfl
  have hinv : (State.resetWith p).Inv := inv_setInputs_resetWith hp []
  have hocc : (State.resetWith p).occ = 0 := occ_of_rd_eq_wr rfl
  have hfree : (State.resetWith p).free = p.capacity - 1 := by
    rw [State.free, hocc]
    rfl
  have hempty : (State.resetWith p).empty = true := (empty_iff hinv.rd_lt hinv.wr_lt).2 hocc
  have hfull : (State.resetWith p).full = false := by
    rw [← Bool.not_eq_true, hinv.full_iff_free, hfree]
    have hcap := Params.two_le_capacity hp
    omega
  refine ⟨rfl, rfl, rfl, hocc, hfree, hempty, hfull, contents_of_occ_zero hocc, rfl, rfl, fun x => ?_, fun i => ?_⟩
  · cases x <;> exact ⟨rfl, rfl⟩
  · exact ⟨rfl, rfl, rfl, rfl, rfl, rfl⟩

end Sys2Proof.Proofs
end

section
/-! PROOFS. The family of 20_memory.md: which side writes what, which acts commute, what an agent's write does. -/

namespace Sys2Proof.Machine

/-! ### What a step of a port leaves to the others (20_memory.md R50, R53) -/

/-- From `s` to `t` nothing is written that a port other than `x` owns. -/
def WritesOnly (x : Port) (s t : State) : Prop :=
  (x ≠ .p → t.wr = s.wr ∧ t.mem = s.mem ∧ t.pbuf = s.pbuf ∧ t.pInflight = s.pInflight) ∧
  (x ≠ .c → t.rd = s.rd ∧ t.cbuf = s.cbuf ∧ t.cInflight = s.cInflight) ∧
  (x ≠ .k → t.kbuf = s.kbuf) ∧
  (x ≠ .b → t.bin = s.bin ∧ t.bout = s.bout)

/-- A command that moves no element and starts no block stores to `BOUT` at most, and that only on port `B`. -/
theorem CommandKeeps.writesOnly {s t : State} (h : CommandKeeps s t) : WritesOnly s.port s t :=
  ⟨fun _ => ⟨h.wr, h.mem, h.pbuf, h.pInflight⟩, fun _ => ⟨h.rd, h.cbuf, h.cInflight⟩, fun _ => h.kbuf,
    fun hb => ⟨h.bin, h.bout hb⟩⟩

theorem exec_writesOnly {i : Instr} {s t : State} (h : exec i s = .next t) : WritesOnly s.port s t := by
  obtain ⟨hk, -⟩ | ⟨_, -, hp, -, rfl⟩ | ⟨_, -, hp, rfl⟩ | ⟨_, -, hp, -, rfl⟩ | ⟨_, _, -, hp, rfl⟩ | ⟨_, -, hp, rfl⟩ :=
    exec_next_cases h
  case inl => exact hk.writesOnly
  all_goals simp [WritesOnly, hp]

theorem elementStep_writesOnly (x : Port) (s : State) : WritesOnly x s (elementStep x s) := by
  cases x with
  | p => obtain ⟨-, e⟩ | ⟨r, -, -, e⟩ | ⟨r, -, -, e⟩ := pushblkElement_cases s <;> simp [WritesOnly, e]
  | c => obtain ⟨-, e⟩ | ⟨r, -, -, e⟩ | ⟨r, -, -, e⟩ := popblkElement_cases s <;> simp [WritesOnly, e]
  | k => simp [WritesOnly]
  | b => simp [WritesOnly]

/-- Only reset has a meaning before the first reset (70_reset_and_hazards.md R150). -/
theorem resetSeen_of_step {s t : State} (hi : ∀ rest, s.inputs ≠ .reset :: rest) (h : step s = .next t) :
    s.resetSeen = true := by
  obtain ⟨-, hs, -⟩ | ⟨_, _, _, _, -, hs, -⟩ | ⟨_, _, _, _, -, hs, -⟩ | ⟨_, _, -, hs, -⟩ | ⟨_, _, _, -, hs, -⟩ |
    ⟨_, _, _, -, hs, -⟩ | ⟨_, _, _, -, hs, -⟩ | ⟨rest, he, -⟩ := step_next_cases h
  case inr.inr.inr.inr.inr.inr.inr => exact absurd he (hi rest)
  all_goals exact hs

theorem stepIsOf_iff {s : State} {x : Port} {i : Input} {rest : List Input} (hi : s.inputs = i :: rest) :
    s.stepIsOf x = true ↔ i.ofPort x = true := by
  rw [State.stepIsOf, hi]

theorem elementPort_of_stepIsOf {s : State} {x : Port} (hi : s.inputs = []) (h : s.stepIsOf x = true) :
    s.elementPort = some x := by
  simpa only [State.stepIsOf, hi, decide_eq_true_eq] using h

theorem step_writesOnly {s t : State} {x : Port} (hx : s.stepIsOf x = true) (h : step s = .next t) :
    WritesOnly x s t := by
  obtain ⟨hi, hs, -⟩ | ⟨y, w, v, rest, hi, -, -, he⟩ | ⟨y, w, v, rest, hi, -, -, rfl⟩ | ⟨y, rest, hi, -, rfl⟩ |
    ⟨i, v, rest, hi, -, -, rfl⟩ | ⟨i, v, rest, hi, -, -, rfl⟩ | ⟨i, v, rest, hi, -, -, rfl⟩ | ⟨rest, hi, rfl⟩ :=
    step_next_cases h
  · -- an idle turn: the element step of port `x`
    rw [step_elementPort (elementPort_of_stepIsOf hi hx) hs] at h
    cases h
    simpa [WritesOnly] using elementStep_writesOnly x (newStep (setInputs s.inputs.tail s))
  all_goals have hport := (stepIsOf_iff hi).1 hx
  · -- a command is carried out
    obtain rfl : y = x := of_decide_eq_true hport
    simpa [WritesOnly] using exec_writesOnly he
  · -- a command at a busy port is ignored
    simp [WritesOnly]
  · -- a scheduled element step
    obtain rfl : y = x := of_decide_eq_true hport
    simpa [WritesOnly] using elementStep_writesOnly y (newStep (setInputs rest s))
  · -- the producer agent writes `PBUF`
    obtain rfl : x = .p := of_decide_eq_true hport
    split_ifs <;> simp [WritesOnly]
  · -- the checksum requester writes `KBUF`
    obtain rfl : x = .k := of_decide_eq_true hport
    simp [WritesOnly]
  · -- the codec requester writes `BIN`
    obtain rfl : x = .b := of_decide_eq_true hport
    simp [WritesOnly]
  · -- reset is no port's
    cases hport

theorem decodeWord_encode (i : Instr) : decodeWord (encode i) = i := by
  rw [decodeWord, opField_encode, lenField_encode]
  cases i <;> rfl

/-- What reads only a part of the state agrees on states of which that part is the same. -/
theorem eq_of_view {α : Type} {view : State → State} (f : State → α) {s t : State} (h : view s = view t)
    (hf : ∀ s : State, f (view s) = f s) : f s = f t := by rw [← hf s, h, hf t]

/-! ### PUSH and POP as steps (40_fifo.md R81, R83) -/

theorem busy_p_of_idle {s : State} (h : s.pInflight = none) : s.busy .p = false := by simp [State.busy, h]

theorem busy_of_ne {x : Port} (hp : x ≠ .p) (hc : x ≠ .c) (s : State) : s.busy x = false := by
  cases x with
  | p => exact absurd rfl hp
  | c => exact absurd rfl hc
  | k => rfl
  | b => rfl

theorem busy_c_of_idle {s : State} (h : s.cInflight = none) : s.busy .c = false := by simp [State.busy, h]

section
variable {s u : State} {len : Len} {v : Elem} {rest : List Input}

theorem step_push (hi : s.inputs = .issue .p (encode (.push len)) v :: rest) (hl : s.lasting = u.lasting)
    (hs : u.resetSeen = true) (hp : u.pInflight = none) : step s = .next (pushRule (issued .p v rest s)) := by
  have hs' : s.resetSeen = true := (eq_of_view State.resetSeen hl fun _ => rfl).trans hs
  have hp' : s.pInflight = none := (eq_of_view State.pInflight hl fun _ => rfl).trans hp
  rw [step_issue hi hs' (busy_p_of_idle hp'), decodeWord_encode]
  exact congrArg Host.Outcome.next (carryOut_accepted (by simp))

theorem step_push_ok (hi : s.inputs = .issue .p (encode (.push len)) v :: rest) (hl : s.lasting = u.lasting)
    (hs : u.resetSeen = true) (hp : u.pInflight = none) (hf : u.full = false) : ∃ t, step s = .next t ∧
      t.inputs = rest ∧ t.pRsp = some ⟨.ok, 0⟩ ∧ t.lasting = (pushElem (v % 2 ^ u.params.width) u).lasting := by
  have hf' : s.full = false := (eq_of_view State.full hl fun _ => rfl).trans hf
  have hparams : s.params = u.params := eq_of_view State.params hl fun _ => rfl
  have hrule : pushRule (issued .p v rest s) =
      respond .p .ok 0 (pushElem (v % 2 ^ u.params.width) (issued .p v rest s)) := by
    simp [pushRule, pushOperand, hf', hparams]
  exact ⟨_, (step_push hi hl hs hp).trans (congrArg Host.Outcome.next hrule), by simp,
    respond_rsp_same .p .ok 0 (pushElem _ (issued .p v rest s)), by simp [hl]⟩

theorem step_push_full (hi : s.inputs = .issue .p (encode (.push len)) v :: rest) (hl : s.lasting = u.lasting)
    (hs : u.resetSeen = true) (hp : u.pInflight = none) (hf : u.full = true) : ∃ t, step s = .next t ∧
      t.inputs = rest ∧ t.pRsp = some ⟨.fail, 0⟩ ∧ t.lasting = u.lasting := by
  have hf' : s.full = true := (eq_of_view State.full hl fun _ => rfl).trans hf
  have hrule : pushRule (issued .p v rest s) = respond .p .fail 0 (issued .p v rest s) := by simp [pushRule, hf']
  exact ⟨_, (step_push hi hl hs hp).trans (congrArg Host.Outcome.next hrule), by simp,
    respond_rsp_same .p .fail 0 (issued .p v rest s), by simp [hl]⟩

theorem step_pop (hi : s.inputs = .issue .c (encode (.pop len)) v :: rest) (hl : s.lasting = u.lasting)
    (hs : u.resetSeen = true) (hc : u.cInflight = none) : step s = .next (popRule (issued .c v rest s)) := by
  have hs' : s.resetSeen = true := (eq_of_view State.resetSeen hl fun _ => rfl).trans hs
  have hc' : s.cInflight = none := (eq_of_view State.cInflight hl fun _ => rfl).trans hc
  rw [step_issue hi hs' (busy_c_of_idle hc'), decodeWord_encode]
  exact congrArg Host.Outcome.next (carryOut_accepted (by simp))

theorem step_pop_ok (hi : s.inputs = .issue .c (encode (.pop len)) v :: rest) (hl : s.lasting = u.lasting)
    (hs : u.resetSeen = true) (hc : u.cInflight = none) (he : u.empty = false) : ∃ t, step s = .next t ∧
      t.inputs = rest ∧ t.cRsp = some ⟨.ok, 0⟩ ∧ t.cRdata = u.readMem u.rd ∧ t.lasting = (popElem u).lasting := by
  have he' : s.empty = false := (eq_of_view State.empty hl fun _ => rfl).trans he
  have hread : s.readMem s.rd = u.readMem u.rd := eq_of_view (fun w => w.readMem w.rd) hl fun _ => rfl
  have hrule : popRule (issued .c v rest s) =
      setRdata (u.readMem u.rd) (respond .c .ok 0 (popElem (issued .c v rest s))) := by
    simp [popRule, he', hread]
  exact ⟨_, (step_pop hi hl hs hc).trans (congrArg Host.Outcome.next hrule), by simp,
    respond_rsp_same .c .ok 0 (popElem (issued .c v rest s)), by simp, by simp [hl]⟩

theorem step_pop_empty (hi : s.inputs = .issue .c (encode (.pop len)) v :: rest) (hl : s.lasting = u.lasting)
    (hs : u.resetSeen = true) (hc : u.cInflight = none) (he : u.empty = true) : ∃ t, step s = .next t ∧
      t.inputs = rest ∧ t.cRsp = some ⟨.fail, 0⟩ ∧ t.lasting = u.lasting := by
  have he' : s.empty = true := (eq_of_view State.empty hl fun _ => rfl).trans he
  have hrule : popRule (issued .c v rest s) = respond .c .fail 0 (issued .c v rest s) := by simp [popRule, he']
  exact ⟨_, (step_pop hi hl hs hc).trans (congrArg Host.Outcome.next hrule), by simp,
    respond_rsp_same .c .fail 0 (issued .c v rest s), by simp [hl]⟩

end

/-- A PUSH that succeeds leaves an element: `WR` advances, and on a queue that is not full not onto `RD`. -/
theorem empty_pushElem {s : State} (v : Elem) (hf : s.full = false) : (pushElem v s).empty = false := by
  rw [State.full, decide_eq_false_iff_not] at hf
  rw [State.empty, decide_eq_false_iff_not]
  exact Ne.symm hf

/-- A POP that succeeds leaves a slot. -/
theorem State.Inv.full_popElem {s : State} (h : s.Inv) (he : s.empty = false) : (Machine.popElem s).full = false := by
  have hr : (Machine.popElem s).rd < (Machine.popElem s).params.capacity := bump_lt h.capacity_pos
  have hocc : s.occ ≠ 0 := by simpa [he] using (empty_iff h.rd_lt h.wr_lt).symm
  have hpop := occ_popElem h.rd_lt h.wr_lt (Nat.pos_of_ne_zero hocc)
  have hlt := occ_lt h.capacity_pos
  rw [← Bool.not_eq_true, full_iff hr h.wr_lt, popElem_params]
  omega

theorem pushElem_popElem (v : Elem) (s : State) : pushElem v (popElem s) = popElem (pushElem v s) := rfl

/-! ### An agent's write as a step (20_memory.md R53) -/

section
variable {s : State} {i : Nat} {rest : List Input}

theorem step_writePbuf {v : Elem} (hi : s.inputs = .writePbuf i v :: rest) (hs : s.resetSeen = true) :
    step s = if s.params.capacity - 1 ≤ i then .fault .noSuchElement
      else .next (setPbuf (if s.busy .p then s.pbuf.unspecify else s.pbuf.write i (v % 2 ^ s.params.width))
        (newStep (setInputs rest s))) := by
  simp only [step, hi, writePbufTurn, afterFirstReset, hs, if_true]
  cases s.busy .p <;> rfl

theorem step_writeKbuf {v : Byte} (hi : s.inputs = .writeKbuf i v :: rest) (hs : s.resetSeen = true) :
    step s = if s.params.maxSpan ≤ i then .fault .noSuchElement
      else .next (setKbuf (s.kbuf.write i v) (newStep (setInputs rest s))) := by
  simp only [step, hi, writeKbufTurn, afterFirstReset, hs, if_true]

theorem step_writeBin {v : Byte} (hi : s.inputs = .writeBin i v :: rest) (hs : s.resetSeen = true) :
    step s = if s.params.maxEncoded ≤ i then .fault .noSuchElement
      else .next (setBin (s.bin.write i v) (newStep (setInputs rest s))) := by
  simp only [step, hi, writeBinTurn, afterFirstReset, hs, if_true]

end

theorem setPbuf_write_readPbuf_same (s : State) (i : Nat) (v : Elem) :
    (setPbuf (s.pbuf.write i v) s).readPbuf i = v := by simp [State.readPbuf]

theorem setPbuf_write_readPbuf_other {s : State} {i a : Nat} (h : a ≠ i) (v : Elem) :
    (setPbuf (s.pbuf.write i v) s).readPbuf a = s.readPbuf a := by
  simp [State.readPbuf, Memory.lookup_write_other _ h]

theorem setKbuf_write_readKbuf_same (s : State) (i : Nat) (v : Byte) :
    (setKbuf (s.kbuf.write i v) s).readKbuf i = v := by simp [State.readKbuf]

theorem setKbuf_write_readKbuf_other {s : State} {i a : Nat} (h : a ≠ i) (v : Byte) :
    (setKbuf (s.kbuf.write i v) s).readKbuf a = s.readKbuf a := by
  simp [State.readKbuf, Memory.lookup_write_other _ h]

theorem setBin_write_readBin_same (s : State) (i : Nat) (v : Byte) :
    (setBin (s.bin.write i v) s).readBin i = v := by simp [State.readBin]

theorem setBin_write_readBin_other {s : State} {i a : Nat} (h : a ≠ i) (v : Byte) :
    (setBin (s.bin.write i v) s).readBin a = s.readBin a := by
  simp [State.readBin, Memory.lookup_write_other _ h]

/-! ### The two sides of the lasting state: the queue's, and that of the checksum unit and the codec -/

/-- The lasting state but for the buffers of the checksum unit and the codec. -/
def State.queueSide (s : State) : State := { s.lasting with kbuf := .unwritten, bin := .unwritten, bout := .unwritten }

/-- The lasting state but for what the queue and its ports own. -/
def State.unitSide (s : State) : State :=
  { s.lasting with
    mem := .unwritten, wr := 0, rd := 0, pbuf := .unwritten, cbuf := .unwritten, pInflight := none, cInflight := none }

theorem lasting_eq_of_sides {s t : State} (hq : s.queueSide = t.queueSide) (hu : s.unitSide = t.unitSide) :
    s.lasting = t.lasting := by
  have hjoin : ∀ r : State, r.lasting =
      setKbuf r.unitSide.kbuf (setBin r.unitSide.bin (setBout r.unitSide.bout r.queueSide)) := fun _ => rfl
  rw [hjoin s, hjoin t, hq, hu]

/-- A part of the lasting state that holds the parameters and whether a reset has been seen. -/
structure IsSide (side : State → State) : Prop where
  of_lasting : ∀ {s t : State}, s.lasting = t.lasting → side s = side t
  params : ∀ s, (side s).params = s.params
  resetSeen : ∀ s, (side s).resetSeen = s.resetSeen

theorem isSide_queueSide : IsSide State.queueSide where
  of_lasting {s t} h := show s.lasting.queueSide = t.lasting.queueSide by rw [h]
  params _ := rfl
  resetSeen _ := rfl

theorem isSide_unitSide : IsSide State.unitSide where
  of_lasting {s t} h := show s.lasting.unitSide = t.lasting.unitSide by rw [h]
  params _ := rfl
  resetSeen _ := rfl

/-! ### What an act of one side leaves of the other -/

theorem exec_inputs_resetSeen {i : Instr} {s t : State} (h : exec i s = .next t) :
    t.inputs = s.inputs ∧ t.resetSeen = s.resetSeen := by
  obtain ⟨hk, -⟩ | ⟨_, -, -, -, rfl⟩ | ⟨_, -, -, rfl⟩ | ⟨_, -, -, -, rfl⟩ | ⟨_, _, -, -, rfl⟩ | ⟨_, -, -, rfl⟩ :=
    exec_next_cases h
  case inl => exact ⟨hk.inputs, hk.resetSeen⟩
  all_goals simp

theorem elementStep_inputs_resetSeen (x : Port) (s : State) :
    (elementStep x s).inputs = s.inputs ∧ (elementStep x s).resetSeen = s.resetSeen := by
  cases x with
  | p => obtain ⟨-, e⟩ | ⟨r, -, -, e⟩ | ⟨r, -, -, e⟩ := pushblkElement_cases s <;> simp [e]
  | c => obtain ⟨-, e⟩ | ⟨r, -, -, e⟩ | ⟨r, -, -, e⟩ := popblkElement_cases s <;> simp [e]
  | k => simp
  | b => simp

/-- A step takes what comes next, and no step but reset changes whether a reset has been seen. -/
theorem step_inputs_resetSeen {s t : State} {i : Input} {rest : List Input} (hi : s.inputs = i :: rest) (hr : i ≠ .reset)
    (h : step s = .next t) : t.inputs = rest ∧ t.resetSeen = s.resetSeen := by
  obtain ⟨he, -, -⟩ | ⟨x, w, v, r, he, -, -, hx⟩ | ⟨x, w, v, r, he, -, -, rfl⟩ | ⟨x, r, he, -, rfl⟩ |
    ⟨j, v, r, he, -, -, rfl⟩ | ⟨j, v, r, he, -, -, rfl⟩ | ⟨j, v, r, he, -, -, rfl⟩ | ⟨r, he, rfl⟩ :=
    step_next_cases h <;> rw [hi] at he <;> cases he
  · -- a command is carried out
    obtain ⟨hin, hseen⟩ := exec_inputs_resetSeen hx
    simp [hin, hseen]
  · -- a command at a busy port is ignored
    simp
  · -- a scheduled element step
    obtain ⟨hin, hseen⟩ := elementStep_inputs_resetSeen x (newStep (setInputs rest s))
    simp [hin, hseen]
  · -- the producer agent writes `PBUF`
    split_ifs <;> simp
  · -- the checksum requester writes `KBUF`
    simp
  · -- the codec requester writes `BIN`
    simp
  · -- reset
    exact absurd rfl hr

/-- An act `i` leaves the side as it was. -/
def Spares (side : State → State) (i : Input) : Prop :=
  ∀ (s t : State) (rest : List Input), s.inputs = i :: rest → step s = .next t → side t = side s

theorem Input.ofPort_of_onQueue {i : Input} (h : i.onQueue = true) :
    i ≠ .reset ∧ ∃ x, i.ofPort x = true ∧ x ≠ .k ∧ x ≠ .b := by
  cases i with
  | issue x _ _ => cases x <;> simp_all [Input.onQueue, Input.ofPort]
  | advance x => cases x <;> simp_all [Input.onQueue, Input.ofPort]
  | writePbuf _ _ => simp [Input.ofPort]
  | writeKbuf _ _ => cases h
  | writeBin _ _ => cases h
  | reset => cases h

theorem Input.ofPort_of_offQueue {i : Input} (h : i.offQueue = true) :
    i ≠ .reset ∧ ∃ x, i.ofPort x = true ∧ x ≠ .p ∧ x ≠ .c := by
  cases i with
  | issue x _ _ => cases x <;> simp_all [Input.offQueue, Input.ofPort]
  | advance x => cases x <;> simp_all [Input.offQueue, Input.ofPort]
  | writePbuf _ _ => cases h
  | writeKbuf _ _ => simp [Input.ofPort]
  | writeBin _ _ => simp [Input.ofPort]
  | reset => cases h

theorem Input.spares_unitSide {q : Input} (h : q.onQueue = true) : Spares State.unitSide q := by
  intro s t rest hi hst
  obtain ⟨hr, x, hx, hk, hb⟩ := Input.ofPort_of_onQueue h
  obtain ⟨-, -, hkbuf, hcodec⟩ := step_writesOnly ((stepIsOf_iff hi).2 hx) hst
  obtain ⟨hbin, hbout⟩ := hcodec hb
  simp only [State.unitSide, State.lasting, hkbuf hk, hbin, hbout, step_params hst, (step_inputs_resetSeen hi hr hst).2]

theorem Input.spares_queueSide {o : Input} (h : o.offQueue = true) : Spares State.queueSide o := by
  intro s t rest hi hst
  obtain ⟨hr, x, hx, hp, hc⟩ := Input.ofPort_of_offQueue h
  obtain ⟨hpush, hpop, -, -⟩ := step_writesOnly ((stepIsOf_iff hi).2 hx) hst
  obtain ⟨hwr, hmem, hpbuf, hpin⟩ := hpush hp
  obtain ⟨hrd, hcbuf, hcin⟩ := hpop hc
  simp only [State.queueSide, State.lasting, hwr, hmem, hpbuf, hpin, hrd, hcbuf, hcin, step_params hst,
    (step_inputs_resetSeen hi hr hst).2]

/-! ### What an act of one side depends on -/

/-- What an act `i` makes of the side depends on nothing but the side. -/
def DependsOn (side : State → State) (i : Input) : Prop :=
  ∀ (s s' t : State) (rest rest' : List Input), side s = side s' → s.inputs = i :: rest → s'.inputs = i :: rest' →
    step s = .next t → ∃ t', step s' = .next t' ∧ side t' = side t

section
variable {side : State → State}

theorem IsSide.respond (h : IsSide side) (x : Port) (st : Status) (n : Nat) (s : State) :
    side (Machine.respond x st n s) = side s := h.of_lasting (respond_lasting x st n s)

theorem IsSide.turn (h : IsSide side) (rest : List Input) (s : State) :
    side (newStep (setInputs rest s)) = side s := h.of_lasting rfl

theorem IsSide.params_eq (h : IsSide side) {s s' : State} (hs : side s = side s') : s.params = s'.params :=
  eq_of_view State.params hs h.params

theorem IsSide.resetSeen_of_eq (h : IsSide side) {s s' : State} (hs : side s = side s') (hseen : s.resetSeen = true) :
    s'.resetSeen = true := (eq_of_view State.resetSeen hs.symm h.resetSeen).trans hseen

/-- A command depends on one side if its rule does, on the ports that carry it out; a refused command changes nothing. -/
theorem carryOut_side (h : IsSide side) {ports : List Port} {ok ok' : Bool} {rule rule' : State → State} {s s' : State}
    (hport : s.port = s'.port) (hok : ok = ok') (hs : side s = side s')
    (hrule : s.port ∈ ports → side (rule s) = side (rule' s')) :
    side (carryOut ports ok rule s) = side (carryOut ports ok' rule' s') := by
  subst hok
  obtain ⟨hp, rfl, c⟩ | ⟨hp, c⟩ := carryOut_cases ports ok rule s
  · rw [c, carryOut_accepted (s := s') (by simpa [← hport] using hp), hrule hp]
  · rw [c, carryOut_refused (s := s') (by simpa [← hport] using hp), h.respond, h.respond, hs]

end

@[simp] theorem respond_queueSide (x : Port) (st : Status) (n : Nat) (s : State) :
    (respond x st n s).queueSide = s.queueSide := isSide_queueSide.respond x st n s
@[simp] theorem setRdata_queueSide (v : Elem) (s : State) : (setRdata v s).queueSide = s.queueSide := rfl
@[simp] theorem pushElem_queueSide (v : Elem) (s : State) : (pushElem v s).queueSide = pushElem v s.queueSide := rfl
@[simp] theorem popElem_queueSide (s : State) : (popElem s).queueSide = popElem s.queueSide := rfl
@[simp] theorem discardAll_queueSide (s : State) : (discardAll s).queueSide = discardAll s.queueSide := rfl
@[simp] theorem setPInflight_queueSide (r : Option PushInflight) (s : State) :
    (setPInflight r s).queueSide = setPInflight r s.queueSide := rfl
@[simp] theorem setCInflight_queueSide (r : Option PopInflight) (s : State) :
    (setCInflight r s).queueSide = setCInflight r s.queueSide := rfl
@[simp] theorem setPbuf_queueSide (m : Memory Elem) (s : State) : (setPbuf m s).queueSide = setPbuf m s.queueSide := rfl
@[simp] theorem setCbuf_queueSide (m : Memory Elem) (s : State) : (setCbuf m s).queueSide = setCbuf m s.queueSide := rfl

section
variable {s s' : State} (hs : s.queueSide = s'.queueSide)
include hs

theorem pushRule_queueSide (hw : s.pWdata = s'.pWdata) : (pushRule s).queueSide = (pushRule s').queueSide := by
  unfold pushRule pushOperand
  rw [eq_of_view State.full hs (fun _ => rfl), hw]
  split <;> simp [hs]

theorem pushblkRule_queueSide (n : Nat) : (pushblkRule n s).queueSide = (pushblkRule n s').queueSide := by
  unfold pushblkRule
  rw [eq_of_view State.free hs (fun _ => rfl)]
  split_ifs <;> simp [hs]

theorem popRule_queueSide : (popRule s).queueSide = (popRule s').queueSide := by
  unfold popRule
  rw [eq_of_view State.empty hs (fun _ => rfl)]
  split <;> simp [hs]

theorem popblkRule_queueSide (n : Nat) : (popblkRule n s).queueSide = (popblkRule n s').queueSide := by
  unfold popblkRule
  rw [eq_of_view State.occ hs (fun _ => rfl)]
  split <;> simp [hs]

theorem pushblkElement_queueSide : (pushblkElement s).queueSide = (pushblkElement s').queueSide := by
  have hread : ∀ i, s.readPbuf i = s'.readPbuf i := fun i => eq_of_view (·.readPbuf i) hs fun _ => rfl
  unfold pushblkElement
  rw [eq_of_view State.pInflight hs (fun _ => rfl)]
  split
  · exact hs
  · dsimp only
    split <;> simp [hs, hread]

theorem popblkElement_queueSide : (popblkElement s).queueSide = (popblkElement s').queueSide := by
  have hread : s.readMem s.rd = s'.readMem s'.rd := eq_of_view (fun u => u.readMem u.rd) hs fun _ => rfl
  have hcbuf : s.cbuf = s'.cbuf := eq_of_view State.cbuf hs fun _ => rfl
  unfold popblkElement
  rw [eq_of_view State.cInflight hs (fun _ => rfl)]
  split
  · exact hs
  · dsimp only
    split <;> simp [hs, hread, hcbuf]

/-- A command on a port of the queue depends on the queue's side, and on port `P` on the operand sampled there. -/
theorem exec_queueSide {i : Instr} {t t' : State} (hport : s.port = s'.port) (hk : s.port ≠ .k) (hb : s.port ≠ .b)
    (hw : s.port = .p → s.pWdata = s'.pWdata) (h : exec i s = .next t) (h' : exec i s' = .next t') :
    t.queueSide = t'.queueSide := by
  cases i <;> cases h <;> cases h'
  case push len => exact carryOut_side isSide_queueSide hport rfl hs fun hp => pushRule_queueSide hs (hw (by simpa using hp))
  case pushblk len => exact carryOut_side isSide_queueSide hport rfl hs fun _ => pushblkRule_queueSide hs _
  case pop len => exact carryOut_side isSide_queueSide hport rfl hs fun _ => popRule_queueSide hs
  case popblk len => exact carryOut_side isSide_queueSide hport rfl hs fun _ => popblkRule_queueSide hs _
  case clear len => exact carryOut_side isSide_queueSide hport rfl hs fun _ => by simp [clearRule, hs]
  case nop len | free len | occ len => exact carryOut_side isSide_queueSide hport rfl hs fun _ => by simp [hs]
  case crc32 len | cobsenc len | cobsdec len =>
    exact carryOut_side isSide_queueSide hport (by rw [isSide_queueSide.params_eq hs]) hs
      fun hp => absurd hp (by simp [hk, hb])
  all_goals simp [refuseReserved, hs]

end

@[simp] theorem respond_unitSide (x : Port) (st : Status) (n : Nat) (s : State) :
    (respond x st n s).unitSide = s.unitSide := isSide_unitSide.respond x st n s
@[simp] theorem setCrc_unitSide (c : Crc) (s : State) : (setCrc c s).unitSide = s.unitSide := rfl
@[simp] theorem setKbuf_unitSide (m : Memory Byte) (s : State) : (setKbuf m s).unitSide = setKbuf m s.unitSide := rfl
@[simp] theorem setBin_unitSide (m : Memory Byte) (s : State) : (setBin m s).unitSide = setBin m s.unitSide := rfl
@[simp] theorem setBout_unitSide (m : Memory Byte) (s : State) : (setBout m s).unitSide = setBout m s.unitSide := rfl

section
variable {s s' : State} (hs : s.unitSide = s'.unitSide)
include hs

theorem cobsencRule_unitSide (n : Nat) : (cobsencRule n s).unitSide = (cobsencRule n s').unitSide := by
  have hspan : binSpan s n = binSpan s' n := eq_of_view (binSpan · n) hs fun _ => rfl
  have hbout : s.bout = s'.bout := eq_of_view State.bout hs fun _ => rfl
  simp [cobsencRule, hs, hspan, hbout]

theorem cobsdecRule_unitSide (n : Nat) : (cobsdecRule n s).unitSide = (cobsdecRule n s').unitSide := by
  have hspan : binSpan s n = binSpan s' n := eq_of_view (binSpan · n) hs fun _ => rfl
  have hbout : s.bout = s'.bout := eq_of_view State.bout hs fun _ => rfl
  unfold cobsdecRule
  rw [hspan, hbout]
  split <;> simp [hs]

/-- A command on port `K` or `B` depends on the side of the checksum unit and the codec. -/
theorem exec_unitSide {i : Instr} {t t' : State} (hport : s.port = s'.port) (hp : s.port ≠ .p) (hc : s.port ≠ .c)
    (h : exec i s = .next t) (h' : exec i s' = .next t') : t.unitSide = t'.unitSide := by
  have hparams : s.params = s'.params := isSide_unitSide.params_eq hs
  cases i <;> cases h <;> cases h'
  case crc32 len => exact carryOut_side isSide_unitSide hport (by rw [hparams]) hs fun _ => by simp [crc32Rule, hs]
  case cobsenc len => exact carryOut_side isSide_unitSide hport (by rw [hparams]) hs fun _ => cobsencRule_unitSide hs _
  case cobsdec len => exact carryOut_side isSide_unitSide hport (by rw [hparams]) hs fun _ => cobsdecRule_unitSide hs _
  case nop len | free len | occ len => exact carryOut_side isSide_unitSide hport rfl hs fun _ => by simp [hs]
  case push len | pushblk len | pop len | popblk len | clear len =>
    exact carryOut_side isSide_unitSide hport rfl hs fun hm => absurd hm (by simp [hp, hc])
  all_goals simp [refuseReserved, hs]

end

theorem step_ignored {s : State} {x : Port} {w : CmdWord} {v : Elem} {rest : List Input}
    (hi : s.inputs = .issue x w v :: rest) (hs : s.resetSeen = true) (hb : s.busy x = true) :
    step s = .next (newStep (setInputs rest s)) := by
  simp [step, hi, accepts, hs, hb, ignored, afterFirstReset]

/-- A command presented at a port depends on a side if that says whether the port is busy and what a command does. -/
theorem IsSide.issue {side : State → State} (h : IsSide side) {x : Port} (w : CmdWord) (v : Elem)
    (hbusy : ∀ {s s' : State}, side s = side s' → s.busy x = s'.busy x)
    (hexec : ∀ {i : Instr} {s s' t t' : State}, side s = side s' → s.port = x → s'.port = x →
      (x = .p → s.pWdata = s'.pWdata) → exec i s = .next t → exec i s' = .next t' → side t = side t') :
    DependsOn side (.issue x w v) := by
  intro s s' t rest rest' hs hi hi' hst
  have hseen : s.resetSeen = true := resetSeen_of_step (by simp [hi]) hst
  have hseen' : s'.resetSeen = true := h.resetSeen_of_eq hs hseen
  cases hb : s.busy x with
  | true =>
    rw [step_ignored hi hseen hb] at hst
    cases hst
    exact ⟨_, step_ignored hi' hseen' (hbusy hs ▸ hb), by rw [h.turn, h.turn, hs]⟩
  | false =>
    obtain ⟨t', ht'⟩ := exec_next (decodeWord w) (issued x v rest' s')
    rw [step_issue hi hseen hb] at hst
    have hissued : side (issued x v rest s) = side (issued x v rest' s') := by
      rw [h.of_lasting (issued_lasting x v rest s), h.of_lasting (issued_lasting x v rest' s'), hs]
    refine ⟨t', (step_issue hi' hseen' (hbusy hs ▸ hb)).trans ht', (hexec hissued ?_ ?_ ?_ hst ht').symm⟩
    · simp
    · simp
    · rintro rfl
      simp [h.params_eq hs]

/-- A scheduled element step depends on a side if the element step of its port does. -/
theorem IsSide.advance {side : State → State} (h : IsSide side) {x : Port}
    (helem : ∀ {s s' : State}, side s = side s' → side (elementStep x s) = side (elementStep x s')) :
    DependsOn side (.advance x) := by
  intro s s' t rest rest' hs hi hi' hst
  have hseen : s.resetSeen = true := resetSeen_of_step (by simp [hi]) hst
  rw [step_advance hi hseen] at hst
  cases hst
  exact ⟨_, step_advance hi' (h.resetSeen_of_eq hs hseen), (helem (by rw [h.turn, h.turn, hs])).symm⟩

/-- An agent's write depends on a side that holds the buffer, if what it stores does. -/
theorem IsSide.agentWrite {side : State → State} (h : IsSide side) {i : Input} {depth : Params → Nat} {a : Nat}
    {store : State → State → State}
    (hstep : ∀ {s : State} {rest : List Input}, s.inputs = i :: rest → s.resetSeen = true →
      step s = if depth s.params ≤ a then .fault .noSuchElement else .next (store s (newStep (setInputs rest s))))
    (hi : i ≠ .reset)
    (hstore : ∀ {s s' u u' : State}, side s = side s' → side u = side u' → side (store s u) = side (store s' u')) :
    DependsOn side i := by
  intro s s' t rest rest' hs hin hin' hst
  have hseen : s.resetSeen = true := resetSeen_of_step (by simp [hin, hi]) hst
  rw [hstep hin hseen, h.params_eq hs] at hst
  rw [hstep hin' (h.resetSeen_of_eq hs hseen)]
  by_cases hd : depth s'.params ≤ a
  · rw [if_pos hd] at hst
    cases hst
  · rw [if_neg hd] at hst ⊢
    cases hst
    exact ⟨_, rfl, (hstore hs (by rw [h.turn, h.turn, hs])).symm⟩

theorem dependsOn_writePbuf (i : Nat) (v : Elem) : DependsOn State.queueSide (.writePbuf i v) := by
  refine isSide_queueSide.agentWrite (depth := fun p => p.capacity - 1) (store := fun s => setPbuf
    (if s.busy .p then s.pbuf.unspecify else s.pbuf.write i (v % 2 ^ s.params.width))) step_writePbuf (by simp) ?_
  intro s s' u u' hs hu
  have hbusy : s.busy .p = s'.busy .p := eq_of_view (·.busy .p) hs fun _ => rfl
  have hpbuf : s.pbuf = s'.pbuf := eq_of_view State.pbuf hs fun _ => rfl
  simp [hbusy, hpbuf, isSide_queueSide.params_eq hs, hu]

theorem dependsOn_writeKbuf (i : Nat) (v : Byte) : DependsOn State.unitSide (.writeKbuf i v) := by
  refine isSide_unitSide.agentWrite (depth := Params.maxSpan) (store := fun s => setKbuf (s.kbuf.write i v))
    step_writeKbuf (by simp) ?_
  intro s s' u u' hs hu
  have hkbuf : s.kbuf = s'.kbuf := eq_of_view State.kbuf hs fun _ => rfl
  simp [hkbuf, hu]

theorem dependsOn_writeBin (i : Nat) (v : Byte) : DependsOn State.unitSide (.writeBin i v) := by
  refine isSide_unitSide.agentWrite (depth := Params.maxEncoded) (store := fun s => setBin (s.bin.write i v))
    step_writeBin (by simp) ?_
  intro s s' u u' hs hu
  have hbin : s.bin = s'.bin := eq_of_view State.bin hs fun _ => rfl
  simp [hbin, hu]

/-- An act of the queue depends on the queue's side only. -/
theorem Input.dependsOn_queueSide {q : Input} (h : q.onQueue = true) : DependsOn State.queueSide q := by
  have issue : ∀ (x : Port) (w : CmdWord) (v : Elem), x ≠ .k → x ≠ .b → DependsOn State.queueSide (.issue x w v) := by
    intro x w v hk hb
    refine isSide_queueSide.issue w v (fun hs => eq_of_view (·.busy x) hs fun _ => by cases x <;> rfl) ?_
    rintro i s s' t t' hs rfl hport hw he he'
    exact exec_queueSide hs hport.symm hk hb hw he he'
  cases q with
  | issue x w v =>
    cases x with
    | p => exact issue .p w v (by decide) (by decide)
    | c => exact issue .c w v (by decide) (by decide)
    | k => cases h
    | b => cases h
  | advance x =>
    cases x with
    | p => exact isSide_queueSide.advance pushblkElement_queueSide
    | c => exact isSide_queueSide.advance popblkElement_queueSide
    | k => cases h
    | b => cases h
  | writePbuf i v => exact dependsOn_writePbuf i v
  | writeKbuf i v => cases h
  | writeBin i v => cases h
  | reset => cases h

/-- An act of the checksum unit or the codec depends on their side only. -/
theorem Input.dependsOn_unitSide {o : Input} (h : o.offQueue = true) : DependsOn State.unitSide o := by
  have issue : ∀ (x : Port) (w : CmdWord) (v : Elem), x ≠ .p → x ≠ .c → DependsOn State.unitSide (.issue x w v) := by
    intro x w v hp hc
    refine isSide_unitSide.issue w v (fun _ => by rw [busy_of_ne hp hc, busy_of_ne hp hc]) ?_
    rintro i s s' t t' hs rfl hport - he he'
    exact exec_unitSide hs hport.symm hp hc he he'
  cases o with
  | issue x w v =>
    cases x with
    | p => cases h
    | c => cases h
    | k => exact issue .k w v (by decide) (by decide)
    | b => exact issue .b w v (by decide) (by decide)
  | advance x =>
    cases x with
    | p => cases h
    | c => cases h
    | k => exact isSide_unitSide.advance (by simp)
    | b => exact isSide_unitSide.advance (by simp)
  | writePbuf i v => cases h
  | writeKbuf i v => exact dependsOn_writeKbuf i v
  | writeBin i v => exact dependsOn_writeBin i v
  | reset => cases h

/-! ### Exchanging two acts (20_memory.md R49) -/

theorem run_succ_iff {k : Nat} {s t : State} : Sys2Proof.core.run (k + 1) s = .next t ↔
    ∃ a, step s = .next a ∧ Sys2Proof.core.run k a = .next t := by
  cases hs : step s <;> simp [Host.Core.run, Host.Check.core_step, hs]

theorem run_two_iff {s t : State} :
    Sys2Proof.core.run 2 s = .next t ↔ ∃ a, step s = .next a ∧ step a = .next t := by
  rw [run_succ_iff (k := 1)]
  refine exists_congr fun a => and_congr_right fun _ => ?_
  rw [run_succ_iff (k := 0)]
  exact ⟨fun ⟨b, hb, e⟩ => hb.trans e, fun h => ⟨t, h, rfl⟩⟩

/-- Two acts, each of which depends on one side and spares the other, can be exchanged. -/
theorem run_two_swap {A B : State → State} {i j : Input} (hA : IsSide A) (hB : IsSide B) (hir : i ≠ .reset)
    (hjr : j ≠ .reset) (hiA : DependsOn A i) (hiB : Spares B i) (hjB : DependsOn B j) (hjA : Spares A j) {s t : State}
    (h : Sys2Proof.core.run 2 (setInputs [i, j] s) = .next t) :
    ∃ u, Sys2Proof.core.run 2 (setInputs [j, i] s) = .next u ∧ A u = A t ∧ B u = B t := by
  obtain ⟨a, hsa, hat⟩ := run_two_iff.1 h
  have hai : a.inputs = [j] := (step_inputs_resetSeen rfl hir hsa).1
  obtain ⟨b, hsb, hBb⟩ := hjB a (setInputs [j, i] s) t _ _ ((hiB _ a _ rfl hsa).trans (hB.of_lasting rfl)) hai rfl hat
  have hbi : b.inputs = [i] := (step_inputs_resetSeen rfl hjr hsb).1
  have hAb : A b = A (setInputs [i, j] s) := (hjA _ b _ rfl hsb).trans (hA.of_lasting rfl)
  obtain ⟨u, hbu, hAu⟩ := hiA _ b a _ _ hAb.symm rfl hbi hsa
  exact ⟨u, run_two_iff.2 ⟨b, hsb, hbu⟩, hAu.trans (hjA a t _ hai hat).symm, (hiB b u _ hbi hbu).trans hBb⟩

end Sys2Proof.Machine

namespace Sys2Proof.Proofs

open Sys2Proof Sys2Proof.Machine

/-- Settles O44: every command, element step and agent's write stores only to what its port owns. -/
theorem eachSideWritesItsOwn : Obligations.EachSideWritesItsOwn := by
  unfold Obligations.EachSideWritesItsOwn
  refine ⟨fun s t x hx h => step_writesOnly hx h, fun s t hi he h => ?_⟩
  rw [step_nothing hi he (resetSeen_of_step (by simp [hi]) h)] at h
  cases h
  exact newStep_lasting s

/-- Settles O45: each of the two acts depends on its own side and spares the other's, so `run_two_swap` exchanges them, in
both directions. -/
theorem otherUnitsCommuteWithQueue : Obligations.OtherUnitsCommuteWithQueue := by
  unfold Obligations.OtherUnitsCommuteWithQueue
  intro s t q o hq ho
  obtain ⟨hqr, -⟩ := Input.ofPort_of_onQueue hq
  obtain ⟨hor, -⟩ := Input.ofPort_of_offQueue ho
  have hqdep := Input.dependsOn_queueSide hq
  have hodep := Input.dependsOn_unitSide ho
  have hqspares := Input.spares_unitSide hq
  have hospares := Input.spares_queueSide ho
  constructor
  · intro h
    obtain ⟨u, hu, hqueue, hunit⟩ := run_two_swap isSide_queueSide isSide_unitSide hqr hor hqdep hqspares hodep hospares h
    exact ⟨u, hu, lasting_eq_of_sides hqueue hunit⟩
  · intro h
    obtain ⟨u, hu, hunit, hqueue⟩ := run_two_swap isSide_unitSide isSide_queueSide hor hqr hodep hospares hqdep hqspares h
    exact ⟨u, hu, lasting_eq_of_sides hqueue hunit⟩

/-- Settles O46: PUSH leaves an element and POP a slot, so each finds the queue neither full nor empty; they write different
fields, and POP reads a slot that PUSH does not store to. -/
theorem pushAndPopCommute : Obligations.PushAndPopCommute := by
  unfold Obligations.PushAndPopCommute
  intro s m n v w hinv hs hp hc hf he
  have hne : s.rd ≠ s.wr := by simpa [State.empty] using he
  obtain ⟨a, hsa, hai, harsp, hal⟩ := step_push_ok (u := s)
    (s := setInputs [.issue .p (encode (.push m)) v, .issue .c (encode (.pop n)) w] s) rfl rfl hs hp hf
  obtain ⟨b, hsb, -, hbrsp, hbr, hbl⟩ := step_pop_ok hai hal hs hc (empty_pushElem _ hf)
  obtain ⟨c, hsc, hci, hcrsp, hcr, hcl⟩ := step_pop_ok (u := s)
    (s := setInputs [.issue .c (encode (.pop n)) w, .issue .p (encode (.push m)) v] s) rfl rfl hs hc he
  obtain ⟨d, hsd, -, hdrsp, hdl⟩ := step_push_ok hci hcl hs hp (hinv.full_popElem he)
  have hread : b.cRdata = s.readMem s.rd := hbr.trans (readMem_pushElem_other _ hne)
  have hsame : b.lasting = d.lasting := by
    rw [hbl, hdl, popElem_params, pushElem_popElem]
  exact ⟨a, b, c, d, hsa, hsb, hsc, hsd, harsp, hbrsp, hcrsp, hdrsp, hread.trans hcr.symm, hread, hsame⟩

/-- Settles O47: the failing command of the two comes first and changes no lasting state. -/
theorem sameCycleAtTheBounds : Obligations.SameCycleAtTheBounds := by
  unfold Obligations.SameCycleAtTheBounds
  intro s m n v w hinv hs hp hc
  have hcap := Params.two_le_capacity hinv.params_ok
  have hempty := empty_iff hinv.rd_lt hinv.wr_lt
  have hfull := full_iff hinv.rd_lt hinv.wr_lt
  constructor
  · intro hf
    have hocc : s.occ + 1 = s.params.capacity := hfull.1 hf
    have he : s.empty = false := by
      rw [← Bool.not_eq_true, hempty]
      omega
    obtain ⟨a, hsa, hai, harsp, hal⟩ := step_push_full (u := s)
      (s := setInputs [.issue .p (encode (.push m)) v, .issue .c (encode (.pop n)) w] s) rfl rfl hs hp hf
    obtain ⟨b, hsb, -, hbrsp, hbr, hbl⟩ := step_pop_ok hai hal hs hc he
    refine ⟨a, b, hsa, hsb, harsp, hbrsp, ?_⟩
    rw [hbr, eq_of_view State.contents hbl (fun _ => rfl)]
    exact contents_popElem hinv.rd_lt hinv.wr_lt (by omega)
  · intro he
    have hocc : s.occ = 0 := hempty.1 he
    have hlt : s.occ + 1 < s.params.capacity := by omega
    have hf : s.full = false := by
      rw [← Bool.not_eq_true, hfull]
      omega
    obtain ⟨a, hsa, hai, harsp, hal⟩ := step_pop_empty (u := s)
      (s := setInputs [.issue .c (encode (.pop n)) w, .issue .p (encode (.push m)) v] s) rfl rfl hs hc he
    obtain ⟨b, hsb, -, hbrsp, hbl⟩ := step_push_ok hai hal hs hp hf
    refine ⟨a, b, hsa, hsb, harsp, hbrsp, ?_⟩
    rw [eq_of_view State.contents hbl (fun _ => rfl), contents_pushElem _ hinv.rd_lt hinv.wr_lt hlt,
      contents_of_occ_zero hocc, List.nil_append]

/-- Settles O59: after the check of the index each agent's write is one update of its buffer. -/
theorem agentWritesItsBuffer : Obligations.AgentWritesItsBuffer := by
  unfold Obligations.AgentWritesItsBuffer
  intro s i rest hs
  refine ⟨fun v hi => ?_, fun v hi => ?_, fun v hi => ?_⟩
  · rw [step_writePbuf hi hs]
    refine ⟨fun hlt hidle => ?_, fun hlt hbusy => ?_, fun hle => if_pos hle⟩
    · rw [if_neg (by omega), busy_p_of_idle hidle]
      exact ⟨_, rfl, setPbuf_write_readPbuf_same (newStep (setInputs rest s)) i _,
        fun a ha => setPbuf_write_readPbuf_other (s := newStep (setInputs rest s)) ha _, by simp [setPbuf_same_lasting]⟩
    · have hb : s.busy .p = true := Option.isSome_iff_ne_none.2 hbusy
      rw [if_neg (by omega), if_pos hb]
      exact ⟨_, rfl, fun a => Memory.lookup_unspecify s.pbuf a, by simp [setPbuf_same_lasting]⟩
  · rw [step_writeKbuf hi hs]
    refine ⟨fun hlt => ?_, fun hle => if_pos hle⟩
    rw [if_neg (by omega)]
    exact ⟨_, rfl, setKbuf_write_readKbuf_same (newStep (setInputs rest s)) i v,
      fun a ha => setKbuf_write_readKbuf_other (s := newStep (setInputs rest s)) ha v, by simp [setKbuf_same_lasting]⟩
  · rw [step_writeBin hi hs]
    refine ⟨fun hlt => ?_, fun hle => if_pos hle⟩
    rw [if_neg (by omega)]
    exact ⟨_, rfl, setBin_write_readBin_same (newStep (setInputs rest s)) i v,
      fun a ha => setBin_write_readBin_other (s := newStep (setInputs rest s)) ha v, by simp [setBin_same_lasting]⟩

end Sys2Proof.Proofs
end

section
/-! PROOFS. The family of 30_encoding.md: a word and its command determine each other, what the checks of R69 refuse, how a
presented command is taken, what the outputs show. -/

namespace Sys2Proof

/-! ### A word and its command (30_encoding.md R61, R62) -/

/-- The opcode map names a command with the operation code and the length it was given. -/
theorem instrOf_fields (op : OpCode) (n : Len) : opOf (instrOf op n) = op ∧ (instrOf op n).len = n := by
  obtain ⟨k, hk⟩ := op
  interval_cases k <;> exact ⟨rfl, rfl⟩

theorem encode_decodeWord (w : CmdWord) : encode (decodeWord w) = w := by
  obtain ⟨hop, hlen⟩ := instrOf_fields (opField w) (lenField w)
  rw [decodeWord, encode, hop, hlen, append_fields]

/-! ### Words in the opcode table's bits (log 15) -/

theorem CmdWord.toNat_mod_two_pow (w : CmdWord) {nbits : Nat} (h : 20 ≤ nbits) : w.toNat % 2 ^ nbits = w.toNat :=
  Nat.mod_eq_of_lt (w.isLt.trans_le (Nat.pow_le_pow_right two_pos h))

theorem decodeBits_toNat (w : CmdWord) : decodeBits w.toNat = .instr (decodeWord w) := by
  rw [decodeBits, if_pos w.isLt, BitVec.ofNat_toNat, BitVec.setWidth_eq]

theorem decodeBits_wide {bits : Nat} (h : 2 ^ 20 ≤ bits) : decodeBits bits = .rejected .widerThanPort :=
  if_neg (Nat.not_lt.2 h)

theorem decodeTableWord_toNat (w : CmdWord) {nbits : Nat} (h : 20 ≤ nbits) :
    decodeTableWord nbits w.toNat = some (decodeWord w) := by
  rw [decodeTableWord, w.toNat_mod_two_pow h, decodeBits_toNat]

/-! ### The user's checks (30_encoding.md R69) -/

/-- A reserved code is legal on no port, so its own check is part of the check of the port. -/
theorem Instr.ports_of_reserved {i : Instr} (h : i.defined = false) : i.ports = [] := by
  cases i
  case reservedB | reservedC | reservedD | reservedE | reservedF => rfl
  all_goals cases h

theorem Instr.wellFormed_eq (i : Instr) (p : Params) (x : Port) :
    i.wellFormed p x = (i.ports.contains x && i.lenFits p) := by
  unfold Instr.wellFormed Instr.illFormed?
  cases hd : i.defined with
  | false => simp [Instr.ports_of_reserved hd]
  | true => cases i.ports.contains x <;> cases i.lenFits p <;> rfl

theorem Instr.defined_of_wellFormed {i : Instr} {p : Params} {x : Port} (h : i.wellFormed p x = true) :
    i.defined = true := by
  cases hd : i.defined with
  | false => simp [Instr.wellFormed_eq, Instr.ports_of_reserved hd] at h
  | true => rfl

end Sys2Proof

namespace Sys2Proof.Machine

/-! ### The machine's checks are the user's (30_encoding.md R69) -/

/-- What a command does once it is past the checks of 30_encoding.md R69; a reserved one never is. -/
def ruleOf : Instr → State → State
  | .nop _ => fun s => respond s.port .ok 0 s
  | .push _ => pushRule
  | .pushblk n => pushblkRule (count n)
  | .pop _ => popRule
  | .popblk n => popblkRule (count n)
  | .free _ => fun s => respond s.port .ok s.free s
  | .occ _ => fun s => respond s.port .ok s.occ s
  | .clear _ => clearRule
  | .crc32 n => crc32Rule (count n)
  | .cobsenc n => cobsencRule (count n)
  | .cobsdec n => cobsdecRule (count n)
  | .reservedB _ | .reservedC _ | .reservedD _ | .reservedE _ | .reservedF _ => refuseReserved

/-- Every command is its rule behind the user's own table of ports and limits. -/
theorem exec_eq_carryOut (i : Instr) (s : State) :
    exec i s = .next (carryOut i.ports (i.lenFits s.params) (ruleOf i) s) := by
  cases i <;> rfl

theorem exec_illFormed {i : Instr} {s : State} (h : i.wellFormed s.params s.port = false) :
    exec i s = .next (respond s.port .illegal 0 s) := by
  rw [Instr.wellFormed_eq] at h
  rw [exec_eq_carryOut, carryOut_refused h]

theorem exec_wellFormed {i : Instr} {s : State} (h : i.wellFormed s.params s.port = true) :
    exec i s = .next (ruleOf i s) := by
  rw [Instr.wellFormed_eq] at h
  rw [exec_eq_carryOut, carryOut_accepted h]

theorem exec_reserved {i : Instr} (h : i.defined = false) (s : State) :
    exec i s = .next (respond s.port .illegal 0 s) :=
  exec_illFormed (by rw [Instr.wellFormed_eq, Instr.ports_of_reserved h]; rfl)

/-- Port `x` shows no response, or one with a status other than ILLEGAL. -/
def ShowsNoIllegal (x : Port) (t : State) : Prop := ∀ r, t.rsp x = some r → r.status ≠ .illegal

theorem ShowsNoIllegal.of_none {x : Port} {t : State} (h : t.rsp x = none) : ShowsNoIllegal x t := by
  simp [ShowsNoIllegal, h]

theorem ShowsNoIllegal.respond {st : Status} (h : st ≠ .illegal) {x : Port} {n : Nat} {s : State} :
    ShowsNoIllegal x (Machine.respond x st n s) := by
  intro r hr
  cases (respond_rsp_same x st n s).symm.trans hr
  exact h

/-- Past the checks a command of a defined code never answers ILLEGAL. -/
theorem ruleOf_showsNoIllegal {i : Instr} {s : State} (hd : i.defined = true) (hrsp : s.rsp s.port = none) :
    ShowsNoIllegal s.port (ruleOf i s) := by
  have hok : Status.ok ≠ .illegal := by decide
  have hfail : Status.fail ≠ .illegal := by decide
  cases i with
  | nop _ | free _ | occ _ | clear _ | cobsenc _ => exact .respond hok
  | push _ =>
    rw [ruleOf, pushRule]
    split
    · exact .respond hfail
    · exact .respond hok
  | pushblk n =>
    rw [ruleOf, pushblkRule]
    split_ifs
    · exact .respond hfail
    · exact .respond hok
    · exact .of_none ((setPInflight_rsp ..).trans hrsp)
  | pop _ =>
    rw [ruleOf, popRule]
    split
    · exact .respond hfail
    · simpa only [ShowsNoIllegal, setRdata_rsp] using ShowsNoIllegal.respond hok
  | popblk n =>
    rw [ruleOf, popblkRule]
    split
    · exact .respond hok
    · exact .of_none ((setCInflight_rsp ..).trans hrsp)
  | crc32 n => simpa only [ShowsNoIllegal, ruleOf, crc32Rule, setCrc_rsp] using ShowsNoIllegal.respond hok
  | cobsdec n =>
    rw [ruleOf, cobsdecRule]
    split
    · exact .respond (by decide)
    · exact .respond hok
  | reservedB _ | reservedC _ | reservedD _ | reservedE _ | reservedF _ => cases hd

/-! ### A word given to `withFetchWord` (log 14) -/

section
variable (x : Port) (w : CmdWord) (s : State)

@[simp] theorem presenting_inputs : (presenting x w s).inputs = .issue x w 0 :: s.inputs := by cases x <;> rfl
@[simp] theorem presenting_resetSeen : (presenting x w s).resetSeen = true := by cases x <;> rfl
@[simp] theorem presenting_busy : (presenting x w s).busy x = false := by cases x <;> rfl

end

theorem withFetchWord_toNat (s : State) (w : CmdWord) {nbits : Nat} (h : 20 ≤ nbits) :
    s.withFetchWord nbits w.toNat = presenting (homePort (decodeWord w)) w s := by
  rw [State.withFetchWord, w.toNat_mod_two_pow h, BitVec.ofNat_toNat, BitVec.setWidth_eq]

/-! ### The outputs of a port (30_encoding.md R60, R67, R68) -/

section
variable {s : State} {x : Port} {r : Response}

theorem rspValid_of_some (h : s.rsp x = some r) : s.rspValid x = true := by rw [State.rspValid, h, Option.isSome_some]

theorem rspValid_of_none (h : s.rsp x = none) : s.rspValid x = false := by rw [State.rspValid, h, Option.isSome_none]

theorem statusOut_of_some (h : s.rsp x = some r) : s.statusOut x = statusCode r.status := by rw [State.statusOut, h]

theorem countOut_of_some (h : s.rsp x = some r) : s.countOut x = r.count := by rw [State.countOut, h]

theorem busy_p_iff : s.busy .p = true ↔ s.pInflight ≠ none := Option.isSome_iff_ne_none

theorem busy_c_iff : s.busy .c = true ↔ s.cInflight ≠ none := Option.isSome_iff_ne_none

theorem agentReadCbuf_of_idle (h : s.busy .c = false) (i : Nat) : s.agentReadCbuf i = s.readCbuf i := by
  rw [State.agentReadCbuf, h, if_neg Bool.false_ne_true]

end

end Sys2Proof.Machine

namespace Sys2Proof.Proofs

open Sys2Proof Sys2Proof.Machine

/-- Settles O1: the two fields of the encoded word are the command's code and length, and the opcode map inverts them. -/
theorem decodeAfterEncode : Obligations.DecodeAfterEncode := decodeWord_encode

/-- Settles O2: the command that the opcode map names keeps both fields, and a word is its two fields. -/
theorem encodeAfterDecode : Obligations.EncodeAfterDecode := encode_decodeWord

/-- Settles O3: 20 or more table bits keep every bit of a word. -/
theorem tableWordsDecode : Obligations.TableWordsDecode :=
  ⟨fun w => ⟨decodeTableWord_toNat w le_rfl, decodeTableWord_toNat w (by decide)⟩, fun _ h => decodeBits_wide h⟩

/-- Settles O42: every command is its rule behind the user's checks, and past them no rule answers ILLEGAL. -/
theorem illegalExactlyWhenIllFormed : Obligations.IllegalExactlyWhenIllFormed := by
  unfold Obligations.IllegalExactlyWhenIllFormed
  intro i s hrsp
  cases hwf : i.wellFormed s.params s.port with
  | false =>
    exact ⟨_, exec_illFormed hwf, fun _ => ⟨respond_rsp_same .., respond_lasting ..⟩, by simp⟩
  | true =>
    exact ⟨_, exec_wellFormed hwf, by simp, fun _ => ruleOf_showsNoIllegal (Instr.defined_of_wellFormed hwf) hrsp⟩

/-- Settles O4, by evaluating the decoder on the thirteen words. -/
theorem specWordsDecode : Obligations.SpecWordsDecode := by
  unfold Obligations.SpecWordsDecode
  decide

/-- Settles O5: `issued` samples the command on its port and takes the earlier responses back. -/
theorem issuedWordRunsItsCommand : Obligations.IssuedWordRunsItsCommand := by
  unfold Obligations.IssuedWordRunsItsCommand
  intro s x w v rest hi hs hb
  refine ⟨step_issue hi hs hb, issued_port .., issued_inputs .., issued_lasting .., issued_rsp x v rest s, ?_⟩
  rintro rfl
  exact issued_p_pWdata v rest s

/-- Settles O6: `presenting` leaves the command's port idle and its word next. -/
theorem fetchWordRunsNext : Obligations.FetchWordRunsNext := by
  unfold Obligations.FetchWordRunsNext
  intro s w
  rw [withFetchWord_toNat s w (by decide)]
  exact step_issue (presenting_inputs ..) (presenting_resetSeen ..) (presenting_busy ..)

/-- Settles O7: a step that ignores its command only takes the earlier responses back. -/
theorem busyPortIgnoresCommand : Obligations.BusyPortIgnoresCommand := by
  unfold Obligations.BusyPortIgnoresCommand
  intro s x w v rest hi hs hb
  exact ⟨_, step_ignored hi hs hb, rfl, newStep_lasting _, newStep_rsp _⟩

/-- Settles O41: a reserved code is legal on no port, and the refusal is a response alone. -/
theorem reservedAnswersIllegal : Obligations.ReservedAnswersIllegal := by
  unfold Obligations.ReservedAnswersIllegal
  intro len i s hi
  have hreserved : i.defined = false := by
    simp only [List.mem_cons, List.not_mem_nil, or_false] at hi
    obtain rfl | rfl | rfl | rfl | rfl := hi <;> rfl
  exact ⟨_, exec_reserved hreserved s, respond_rsp_same .., by simp [SameIndices], respond_frame .., respond_lasting ..⟩

/-- Settles O60: each output is read off the response or the block in flight that the state holds. -/
theorem outputsShowTheState : Obligations.OutputsShowTheState := by
  unfold Obligations.OutputsShowTheState
  refine ⟨fun s x r h => ?_, fun s x h => rspValid_of_none h, fun s => ⟨busy_p_iff, busy_c_iff, rfl, rfl⟩,
    fun s i h => agentReadCbuf_of_idle h i, fun s i => rfl⟩
  refine ⟨rspValid_of_some h, countOut_of_some h, ?_⟩
  rw [statusOut_of_some h]
  refine ⟨fun e => ?_, fun e => ?_, fun e => ?_, fun e => ?_⟩ <;> rw [e, statusCode]

end Sys2Proof.Proofs
end

section
/-! PROOFS. The family of 40_fifo.md: what each queue command answers and leaves, what one step does to the contents, and
what a run makes of them. -/

namespace Sys2Proof.Machine

/-! ### The counts and the flags under the invariant -/

theorem State.Inv.occ_pos {s : State} (h : s.Inv) (he : s.empty = false) : 0 < s.occ := by
  have hocc : s.occ ≠ 0 := by simpa [he] using (empty_iff h.rd_lt h.wr_lt).symm
  omega

theorem State.Inv.free_pos {s : State} (h : s.Inv) (hf : s.full = false) : 0 < s.free := by
  have hfree : s.free ≠ 0 := by simpa [hf] using h.full_iff_free.symm
  omega

/-- Both counts have 16 bits (00_scope.md R7). -/
theorem State.Inv.counts_lt {s : State} (h : s.Inv) : s.occ < 2 ^ 16 ∧ s.free < 2 ^ 16 := by
  have hsum := h.occ_add_free
  obtain ⟨-, -, hcap, -⟩ := Params.ok_iff.1 h.params_ok
  omega

theorem State.Inv.contents_pushElem {s : State} (h : s.Inv) (v : Elem) (hf : 0 < s.free) :
    (Machine.pushElem v s).contents = s.contents ++ [v] := by
  have hsum := h.occ_add_free
  exact Machine.contents_pushElem v h.rd_lt h.wr_lt (by omega)

theorem State.Inv.contents_popElem {s : State} (h : s.Inv) (he : 0 < s.occ) :
    s.contents = s.readMem s.rd :: (Machine.popElem s).contents :=
  Machine.contents_popElem h.rd_lt h.wr_lt he

/-! ### The element step of a block in flight (40_fifo.md R82, R84, R90) -/

section
variable {s : State}

theorem pushblkElement_last {r : PushInflight} (hr : s.pInflight = some r) (hlast : r.i + 1 = r.n) :
    pushblkElement s = respond .p .ok 0 (setPInflight none (pushElem (s.readPbuf r.i) s)) := by
  simp [pushblkElement, hr, hlast]

theorem pushblkElement_more {r : PushInflight} (hr : s.pInflight = some r) (hmore : r.i + 1 ≠ r.n) :
    pushblkElement s = setPInflight (some ⟨r.n, r.i + 1⟩) (pushElem (s.readPbuf r.i) s) := by
  simp [pushblkElement, hr, hmore]

theorem popblkElement_last {r : PopInflight} (hr : s.cInflight = some r) (hlast : r.i + 1 = r.count) :
    popblkElement s =
      respond .c .ok r.count (setCInflight none (popElem (setCbuf (s.cbuf.write r.i (s.readMem s.rd)) s))) := by
  simp [popblkElement, hr, hlast]

theorem popblkElement_more {r : PopInflight} (hr : s.cInflight = some r) (hmore : r.i + 1 ≠ r.count) :
    popblkElement s =
      setCInflight (some ⟨r.count, r.i + 1⟩) (popElem (setCbuf (s.cbuf.write r.i (s.readMem s.rd)) s)) := by
  simp [popblkElement, hr, hmore]

/-- A PUSHBLK in flight finds a free slot. -/
theorem State.Inv.free_pos_of_inflight {r : PushInflight} (h : s.Inv) (hr : s.pInflight = some r) : 0 < s.free := by
  obtain ⟨hi, -, hroom⟩ := h.push_inflight r hr
  omega

/-- A POPBLK in flight finds an element. -/
theorem State.Inv.occ_pos_of_inflight {r : PopInflight} (h : s.Inv) (hr : s.cInflight = some r) : 0 < s.occ := by
  obtain ⟨hi, -, hleft⟩ := h.pop_inflight r hr
  omega

theorem State.Inv.contents_pushblkElement {r : PushInflight} (h : s.Inv) (hr : s.pInflight = some r) :
    (pushblkElement s).contents = s.contents ++ [s.readPbuf r.i] := by
  have hpush := h.contents_pushElem (s.readPbuf r.i) (h.free_pos_of_inflight hr)
  by_cases hlast : r.i + 1 = r.n
  · simp [pushblkElement_last hr hlast, hpush]
  · simp [pushblkElement_more hr hlast, hpush]

theorem readCbuf_popblkElement_same {r : PopInflight} (hr : s.cInflight = some r) :
    (popblkElement s).readCbuf r.i = s.readMem s.rd := by
  by_cases hlast : r.i + 1 = r.count
  · simp [popblkElement_last hr hlast, setCbuf_write_readCbuf_same]
  · simp [popblkElement_more hr hlast, setCbuf_write_readCbuf_same]

theorem readCbuf_popblkElement_other {r : PopInflight} (hr : s.cInflight = some r) {a : Nat} (ha : a ≠ r.i) :
    (popblkElement s).readCbuf a = s.readCbuf a := by
  by_cases hlast : r.i + 1 = r.count
  · simp [popblkElement_last hr hlast, setCbuf_write_readCbuf_other ha]
  · simp [popblkElement_more hr hlast, setCbuf_write_readCbuf_other ha]

theorem State.Inv.contents_popblkElement {r : PopInflight} (h : s.Inv) (hr : s.cInflight = some r) :
    s.contents = s.readMem s.rd :: (popblkElement s).contents := by
  have hcbuf : (Machine.popElem (Machine.setCbuf (s.cbuf.write r.i (s.readMem s.rd)) s)).contents =
      (Machine.popElem s).contents := rfl
  rw [h.contents_popElem (h.occ_pos_of_inflight hr)]
  by_cases hlast : r.i + 1 = r.count
  · simp [popblkElement_last hr hlast, hcbuf]
  · simp [popblkElement_more hr hlast, hcbuf]

@[simp] theorem setInputs_busy (rest : List Input) (s : State) (x : Port) : (setInputs rest s).busy x = s.busy x := by
  cases x <;> rfl

/-- With nothing in flight on its port an element step does nothing (log 18). -/
theorem elementStep_of_idle {x : Port} (h : s.busy x = false) : elementStep x s = s := by
  cases x with
  | p =>
    have hidle : s.pInflight = none := by simpa [State.busy] using h
    simp [pushblkElement, hidle]
  | c =>
    have hidle : s.cInflight = none := by simpa [State.busy] using h
    simp [popblkElement, hidle]
  | k => rfl
  | b => rfl

/-! ### The event of a step, by what comes next -/

theorem not_reset_of_elementPort {x : Port} (h : s.elementPort = some x) (rest : List Input) :
    s.inputs ≠ .reset :: rest := by
  intro hi
  simp [State.elementPort, hi] at h

theorem busy_of_elementPort {x : Port} (h : s.elementPort = some x) : s.busy x = true := by
  unfold State.elementPort at h
  split at h
  · split at h
    · next hb => exact Option.some.inj h ▸ hb
    · split at h
      · next hb => exact Option.some.inj h ▸ hb
      · cases h
  · split at h
    · next hb => exact Option.some.inj h ▸ hb
    · cases h
  all_goals cases h

/-- The element step that comes next is a step of its port alone. -/
theorem stepIsOf_of_elementPort {x y : Port} (h : s.elementPort = some x) (hy : y ≠ x) : s.stepIsOf y = false := by
  cases hi : s.inputs with
  | nil => simp [State.stepIsOf, hi, h, hy.symm]
  | cons i rest =>
    cases i <;> simp [State.elementPort, hi] at h
    simp [State.stepIsOf, hi, Input.ofPort, h.2, hy.symm]

theorem eventOf_pushblkElement {t : State} {r : PushInflight} (h : s.elementPort = some .p)
    (hr : s.pInflight = some r) : eventOf s t = some (.stored (s.readPbuf r.i)) := by
  cases hi : s.inputs with
  | nil => simp [eventOf, hi, h, hr]
  | cons i rest =>
    cases i
    case advance x => simp [eventOf, hi, h, hr]
    all_goals simp [State.elementPort, hi] at h

theorem eventOf_popblkElement {t : State} {r : PopInflight} (h : s.elementPort = some .c)
    (hr : s.cInflight = some r) : eventOf s t = some (.returned (t.readCbuf r.i)) := by
  cases hi : s.inputs with
  | nil => simp [eventOf, hi, h, hr]
  | cons i rest =>
    cases i
    case advance x => simp [eventOf, hi, h, hr]
    all_goals simp [State.elementPort, hi] at h

/-- A step that is no command, no element step and no reset has no event. -/
theorem eventOf_of_no_element {t : State} (h : s.elementPort = none) (hissue : ∀ x w v rest, s.inputs ≠ .issue x w v :: rest)
    (hreset : ∀ rest, s.inputs ≠ .reset :: rest) : eventOf s t = none := by
  cases hi : s.inputs with
  | nil => simp [eventOf, hi, h]
  | cons i rest =>
    cases i
    case issue x w v => exact absurd hi (hissue x w v rest)
    case reset => exact absurd hi (hreset rest)
    all_goals simp [eventOf, hi, h]

theorem eventOf_reset {t : State} {rest : List Input} (hi : s.inputs = .reset :: rest) : eventOf s t = some .emptied := by
  simp [eventOf, hi]

section
variable {t : State} {x : Port} {w : CmdWord} {v : Elem} {rest : List Input} (hi : s.inputs = .issue x w v :: rest)
include hi

theorem eventOf_ignored (hb : s.busy x = true) : eventOf s t = none := by simp [eventOf, hi, accepts, hb]

theorem eventOf_push_ok {len : Len} (hs : s.resetSeen = true) (hb : s.busy x = false) (hx : x = .p)
    (hw : decodeWord w = .push len) (ht : t.pRsp = some ⟨.ok, 0⟩) :
    eventOf s t = some (.stored (v % 2 ^ s.params.width)) := by
  subst hx
  simp [eventOf, hi, accepts, hs, hb, hw, ht]

theorem eventOf_pop_ok {len : Len} (hs : s.resetSeen = true) (hb : s.busy x = false) (hx : x = .c)
    (hw : decodeWord w = .pop len) (ht : t.cRsp = some ⟨.ok, 0⟩) : eventOf s t = some (.returned t.cRdata) := by
  subst hx
  simp [eventOf, hi, accepts, hs, hb, hw, ht]

theorem eventOf_clear {len : Len} (hs : s.resetSeen = true) (hb : s.busy x = false) (hx : x = .c)
    (hw : decodeWord w = .clear len) : eventOf s t = some .emptied := by
  subst hx
  simp [eventOf, hi, accepts, hs, hb, hw]

/-- A command has no event if it is no PUSH and no POP that answers OK and no CLEAR. -/
theorem eventOf_quiet_command (hpush : ∀ len, decodeWord w = .push len → x = .p → t.pRsp ≠ some ⟨.ok, 0⟩)
    (hpop : ∀ len, decodeWord w = .pop len → x = .c → t.cRsp ≠ some ⟨.ok, 0⟩)
    (hclear : ∀ len, decodeWord w = .clear len → x ≠ .c) : eventOf s t = none := by
  unfold eventOf
  rw [hi]
  dsimp only
  split
  · next ha =>
    split
    · next hw => exact if_neg (hpush _ hw rfl)
    · next hw => exact if_neg (hpop _ hw rfl)
    · next hw => exact absurd rfl (hclear _ hw)
    · rfl
  · rfl

end

end

/-! ### What one step does to the contents (40_fifo.md R88) -/

/-- A step with event `e` moves the contents from those of `s` to those of `t` as a queue in order does; the consumer
stores nothing, and the producer takes nothing away. -/
inductive QueueMove (s t : State) : Option QueueEvent → Prop
  | kept (h : t.contents = s.contents) : QueueMove s t none
  | stored {v : Elem} (side : s.stepIsOf .c = false) (h : t.contents = s.contents ++ [v]) :
      QueueMove s t (some (.stored v))
  | returned {v : Elem} (side : s.stepIsOf .p = false) (h : s.contents = v :: t.contents) :
      QueueMove s t (some (.returned v))
  | emptied (side : s.stepIsOf .p = false) (h : t.contents = []) : QueueMove s t (some .emptied)

theorem queueMove_elementStep {s : State} {x : Port} (h : s.Inv) (hx : s.elementPort = some x) :
    QueueMove s (elementStep x (newStep (setInputs s.inputs.tail s)))
      (eventOf s (elementStep x (newStep (setInputs s.inputs.tail s)))) := by
  have hinv := (h.setInputs s.inputs.tail).newStep
  have hbusy := busy_of_elementPort hx
  cases x with
  | p =>
    obtain ⟨r, hr⟩ := Option.isSome_iff_exists.1 hbusy
    rw [eventOf_pushblkElement hx hr]
    exact .stored (stepIsOf_of_elementPort hx (by decide)) (hinv.contents_pushblkElement hr)
  | c =>
    obtain ⟨r, hr⟩ := Option.isSome_iff_exists.1 hbusy
    have hread := readCbuf_popblkElement_same (s := newStep (setInputs s.inputs.tail s)) hr
    rw [eventOf_popblkElement hx hr, elementStep_c, hread]
    exact .returned (stepIsOf_of_elementPort hx (by decide)) (hinv.contents_popblkElement hr)
  | k => cases hbusy
  | b => cases hbusy

theorem queueMove_exec {s t : State} {x : Port} {w : CmdWord} {v : Elem} {rest : List Input} (h : s.Inv)
    (hi : s.inputs = .issue x w v :: rest) (hs : s.resetSeen = true) (hb : s.busy x = false)
    (he : exec (decodeWord w) (issued x v rest s) = .next t) : QueueMove s t (eventOf s t) := by
  have hinv := h.issued x v rest
  have hside : ∀ y, y ≠ x → s.stepIsOf y = false := by
    intro y hy
    simp [State.stepIsOf, hi, Input.ofPort, hy.symm]
  obtain ⟨hk, hpush, hpop, hclear⟩ | ⟨len, hw, hp, hf, rfl⟩ | ⟨len, hw, hp, rfl⟩ | ⟨len, hw, hp, hempty, rfl⟩ |
    ⟨len, n, hw, hp, rfl⟩ | ⟨len, hw, hp, rfl⟩ := exec_next_cases he
  all_goals simp only [issued_port] at *
  · -- nothing moves
    rw [eventOf_quiet_command hi (fun len hw hx => by simp [(hpush len hw hx).2])
      (fun len hw hx => by simp [(hpop len hw hx).2]) hclear]
    exact .kept ((contents_congr hk.mem hk.wr hk.rd hk.params).trans (issued_contents ..))
  · -- PUSH
    subst hp
    rw [eventOf_push_ok hi hs hb rfl hw (respond_rsp_same .p ..)]
    refine .stored (hside _ (by decide)) ?_
    simpa using hinv.contents_pushElem (issued .p v rest s).pWdata (hinv.free_pos hf)
  · -- PUSHBLK starts
    rw [eventOf_quiet_command hi (by simp [hw]) (by simp [hw]) (by simp [hw])]
    exact .kept (by simp)
  · -- POP
    subst hp
    have hrsp : (setRdata ((issued .c v rest s).readMem (issued .c v rest s).rd)
        (respond .c .ok 0 (popElem (issued .c v rest s)))).cRsp = some ⟨.ok, 0⟩ := rfl
    rw [eventOf_pop_ok hi hs hb rfl hw hrsp]
    refine .returned (hside _ (by decide)) ?_
    simpa using hinv.contents_popElem (hinv.occ_pos hempty)
  · -- POPBLK starts
    rw [eventOf_quiet_command hi (by simp [hw]) (by simp [hw]) (by simp [hw])]
    exact .kept (by simp)
  · -- CLEAR
    subst hp
    rw [eventOf_clear hi hs hb rfl hw]
    exact .emptied (hside _ (by decide)) (by simp)

theorem step_queueMove {s t : State} (h : s.Inv) (hstep : step s = .next t) : QueueMove s t (eventOf s t) := by
  cases hx : s.elementPort with
  | some x =>
    rw [step_elementPort hx (resetSeen_of_step (not_reset_of_elementPort hx) hstep)] at hstep
    cases hstep
    exact queueMove_elementStep h hx
  | none =>
    have hquiet := eventOf_of_no_element (t := t) hx
    obtain ⟨hi, hs, -⟩ | ⟨x, w, v, rest, hi, hs, hb, he⟩ | ⟨x, w, v, rest, hi, -, hb, rfl⟩ | ⟨x, rest, hi, -, rfl⟩ |
      ⟨i, v, rest, hi, -, -, rfl⟩ | ⟨i, v, rest, hi, -, -, rfl⟩ | ⟨i, v, rest, hi, -, -, rfl⟩ | ⟨rest, hi, rfl⟩ :=
      step_next_cases hstep
    · -- an idle turn with nothing in flight
      rw [step_nothing hi hx hs] at hstep
      cases hstep
      rw [hquiet (by simp [hi]) (by simp [hi])]
      exact .kept (by simp)
    · -- a command is carried out
      exact queueMove_exec h hi hs hb he
    · -- a command at a busy port is ignored
      rw [eventOf_ignored hi hb]
      exact .kept (by simp)
    · -- a scheduled element step with nothing in flight
      have hidle : (newStep (setInputs rest s)).busy x = false := by
        rw [newStep_busy, setInputs_busy]
        simpa [State.elementPort, hi] using hx
      rw [hquiet (by simp [hi]) (by simp [hi]), elementStep_of_idle hidle]
      exact .kept (by simp)
    · -- the producer agent writes `PBUF`
      rw [hquiet (by simp [hi]) (by simp [hi])]
      exact .kept (by split_ifs <;> simp)
    · -- the checksum requester writes `KBUF`
      rw [hquiet (by simp [hi]) (by simp [hi])]
      exact .kept (by simp)
    · -- the codec requester writes `BIN`
      rw [hquiet (by simp [hi]) (by simp [hi])]
      exact .kept (by simp)
    · -- reset
      rw [eventOf_reset hi]
      refine .emptied ?_ (contents_of_occ_zero (occ_of_rd_eq_wr rfl))
      simp [State.stepIsOf, hi, Input.ofPort]

theorem QueueMove.replay {s t : State} {e : Option QueueEvent} (h : QueueMove s t e) :
    Machine.replay s.contents e.toList = some t.contents := by
  cases h with
  | kept h => simp [Machine.replay, h]
  | stored _ h => simp [Machine.replay, h]
  | returned _ h => simp [Machine.replay, h]
  | emptied _ h => simp [Machine.replay, h]

theorem QueueMove.occ_le_of_consumer {s t : State} {e : Option QueueEvent} (h : QueueMove s t e)
    (hc : s.stepIsOf .c = true) : t.occ ≤ s.occ := by
  rw [← length_contents s, ← length_contents t]
  cases h with
  | kept h => simp [h]
  | stored side _ => simp [side] at hc
  | returned _ h => simp [h]
  | emptied _ h => simp [h]

theorem QueueMove.occ_le_of_producer {s t : State} {e : Option QueueEvent} (h : QueueMove s t e)
    (hp : s.stepIsOf .p = true) : s.occ ≤ t.occ := by
  rw [← length_contents s, ← length_contents t]
  cases h with
  | kept h => simp [h]
  | stored _ h => simp [h]
  | returned side _ => simp [side] at hp
  | emptied side _ => simp [side] at hp

/-! ### Runs: the events are what a queue in order does (40_fifo.md R88) -/

theorem eventsOf_succ {k : Nat} {s u : State} (h : step s = .next u) :
    eventsOf (k + 1) s = (eventOf s u).toList ++ eventsOf k u := by
  simp [eventsOf, h]

theorem replay_append {q q' : List Elem} {es : List QueueEvent} (h : replay q es = some q') (fs : List QueueEvent) :
    replay q (es ++ fs) = replay q' fs := by
  induction es generalizing q with
  | nil =>
    cases h
    rfl
  | cons e es ih =>
    cases e with
    | stored v => exact ih h
    | returned u =>
      cases q with
      | nil => cases h
      | cons v q =>
        simp only [replay, List.cons_append] at h ⊢
        split at h
        · next huv => rw [if_pos huv, ih h]
        · cases h
    | emptied => cases q <;> exact ih h

theorem replay_eventsOf {k : Nat} {s t : State} (h : s.Inv) (hrun : Sys2Proof.core.run k s = .next t) :
    replay s.contents (eventsOf k s) = some t.contents := by
  induction k generalizing s with
  | zero =>
    cases hrun
    simp [eventsOf, replay]
  | succ k ih =>
    obtain ⟨u, hstep, hrest⟩ := run_succ_iff.1 hrun
    rw [eventsOf_succ hstep, replay_append (step_queueMove h hstep).replay]
    exact ih (step_inv h hstep) hrest

/-- Where nothing is discarded, what was there and what is stored is what is returned and what remains. -/
theorem stored_eq_returned_append {q q' : List Elem} {es : List QueueEvent} (hes : QueueEvent.emptied ∉ es)
    (h : replay q es = some q') : q ++ storedBy es = returnedBy es ++ q' := by
  induction es generalizing q with
  | nil =>
    cases h
    simp [storedBy, returnedBy]
  | cons e es ih =>
    simp only [List.mem_cons, not_or] at hes
    obtain ⟨he, hes⟩ := hes
    cases e with
    | stored v => simpa [storedBy, returnedBy] using ih hes h
    | returned u =>
      cases q with
      | nil => cases h
      | cons v q =>
        simp only [replay] at h
        split at h
        · next huv => simpa [storedBy, returnedBy, huv] using ih hes h
        · cases h
    | emptied => exact absurd rfl he

/-! ### The queue commands past their checks (40_fifo.md R80 to R87) -/

theorem exec_accepted {i : Instr} {s : State} (hport : s.port ∈ i.ports) (hlen : i.lenFits s.params = true) :
    exec i s = .next (ruleOf i s) :=
  exec_wellFormed (by simp [Instr.wellFormed_eq, hport, hlen])

theorem respond_sameIndices (x : Port) (st : Status) (n : Nat) (s : State) : SameIndices s (respond x st n s) := by
  simp [SameIndices]

/-- A command that only answers changes nothing but its port's outputs. -/
theorem exec_answersOnly {i : Instr} {s : State} {x : Port} {st : Status} {n : Nat} (hx : s.port = x)
    (h : exec i s = .next (respond s.port st n s)) :
    ∃ t, exec i s = .next t ∧ t.rsp x = some ⟨st, BitVec.ofNat 16 n⟩ ∧ SameIndices s t ∧
      Frame x nowhere nowhere nowhere s t := by
  subst hx
  exact ⟨_, h, respond_rsp_same .., respond_sameIndices .., respond_frame ..⟩

section
variable {s : State}

theorem pushRule_full (h : s.full = true) : pushRule s = respond s.port .fail 0 s := if_pos h

theorem pushRule_room (h : s.full = false) : pushRule s = respond s.port .ok 0 (pushElem s.pWdata s) :=
  if_neg (by simp [h])

theorem popRule_empty (h : s.empty = true) : popRule s = respond s.port .fail 0 s := if_pos h

theorem popRule_nonempty (h : s.empty = false) :
    popRule s = setRdata (s.readMem s.rd) (respond s.port .ok 0 (popElem s)) := if_neg (by simp [h])

theorem pushblkRule_short {n : Nat} (h : s.free < n) : pushblkRule n s = respond s.port .fail 0 s := if_pos h

theorem pushblkRule_zero : pushblkRule 0 s = respond s.port .ok 0 s := by simp [pushblkRule]

theorem pushblkRule_fits {n : Nat} (h0 : n ≠ 0) (h : n ≤ s.free) : pushblkRule n s = setPInflight (some ⟨n, 0⟩) s := by
  rw [pushblkRule, if_neg (Nat.not_lt.2 h), if_neg h0]

theorem popblkRule_nothing {n : Nat} (h : min s.occ n = 0) : popblkRule n s = respond s.port .ok 0 s := if_pos h

theorem popblkRule_some {n : Nat} (h : min s.occ n ≠ 0) :
    popblkRule n s = setCInflight (some ⟨min s.occ n, 0⟩) s := if_neg h

end

/-! ### The stores and the frames of an element step -/

theorem wr_pushblkElement {s : State} {r : PushInflight} (hr : s.pInflight = some r) :
    (pushblkElement s).wr = bump s.params.capacity s.wr := by
  by_cases hlast : r.i + 1 = r.n
  · simp [pushblkElement_last hr hlast]
  · simp [pushblkElement_more hr hlast]

theorem readMem_pushblkElement {s : State} {r : PushInflight} (hr : s.pInflight = some r) :
    (pushblkElement s).readMem s.wr = s.readPbuf r.i := by
  by_cases hlast : r.i + 1 = r.n
  · simp [pushblkElement_last hr hlast, readMem_pushElem_same]
  · simp [pushblkElement_more hr hlast, readMem_pushElem_same]

theorem rd_popblkElement {s : State} {r : PopInflight} (hr : s.cInflight = some r) :
    (popblkElement s).rd = bump s.params.capacity s.rd := by
  by_cases hlast : r.i + 1 = r.count
  · simp [popblkElement_last hr hlast]
  · simp [popblkElement_more hr hlast]

theorem writeCbuf_frame (i : Nat) (v : Elem) (s : State) :
    Frame .c nowhere (fun a => a = i) nowhere s (setCbuf (s.cbuf.write i v) s) :=
  { Frame.refl .c nowhere (fun a => a = i) nowhere s with
    cbuf := fun _ ha => setCbuf_write_readCbuf_other ha v
    others := fun y _ => setCbuf_rsp _ s y }

theorem Frame.popElem {x : Port} {memAt cbufAt boutAt : Nat → Prop} {s t : State}
    (h : Frame x memAt cbufAt boutAt s t) : Frame x memAt cbufAt boutAt s (Machine.popElem t) :=
  { h with others := fun y hy => (popElem_rsp t y).trans (h.others y hy) }

theorem pushblkElement_frame {s : State} {r : PushInflight} (hr : s.pInflight = some r) :
    Frame .p (fun a => a = s.wr) nowhere nowhere s (pushblkElement s) := by
  have hpush := fun p => (pushElem_frame (s.readPbuf r.i) s).setPInflight p
  by_cases hlast : r.i + 1 = r.n
  · rw [pushblkElement_last hr hlast]
    exact (hpush none).respond .ok 0
  · rw [pushblkElement_more hr hlast]
    exact hpush _

theorem popblkElement_frame {s : State} {r : PopInflight} (hr : s.cInflight = some r) :
    Frame .c nowhere (fun a => a = r.i) nowhere s (popblkElement s) := by
  have hpop := fun c => (writeCbuf_frame r.i (s.readMem s.rd) s).popElem.setCInflight c
  by_cases hlast : r.i + 1 = r.count
  · rw [popblkElement_last hr hlast]
    exact (hpop none).respond .ok r.count
  · rw [popblkElement_more hr hlast]
    exact hpop _

/-! ### Runs of one command or one block -/

theorem run_snoc {k : Nat} {s t u : State} (hrun : Sys2Proof.core.run k s = .next t) (hstep : step t = .next u) :
    Sys2Proof.core.run (k + 1) s = .next u := by
  rw [run_add hrun, run_succ_iff]
  exact ⟨u, hstep, rfl⟩

/-- The producer agent can issue a command. -/
structure ProducerReady (s : State) : Prop where
  inv : s.Inv
  resetSeen : s.resetSeen = true
  idle : s.pInflight = none

theorem ProducerReady.step_push {s : State} {m : Len} {v : Elem} {rest : List Input} (h : ProducerReady s)
    (hi : s.inputs = .issue .p (encode (.push m)) v :: rest) (hfree : 0 < s.free) :
    ∃ t, step s = .next t ∧ t.inputs = rest ∧ t.pRsp = some ⟨.ok, 0⟩ ∧ ProducerReady t ∧
      t.contents = s.contents ++ [v % 2 ^ s.params.width] ∧ t.free + 1 = s.free := by
  have hfull : s.full = false := by
    rw [← Bool.not_eq_true, h.inv.full_iff_free]
    omega
  obtain ⟨t, hstep, hin, hrsp, hlast⟩ := step_push_ok (u := s) hi rfl h.resetSeen h.idle hfull
  obtain ⟨-, hcount⟩ := h.inv.counts_pushElem (v % 2 ^ s.params.width) hfree
  refine ⟨t, hstep, hin, hrsp, ⟨step_inv h.inv hstep, ?_, ?_⟩, ?_, ?_⟩
  · exact (eq_of_view State.resetSeen hlast fun _ => rfl).trans h.resetSeen
  · exact (eq_of_view State.pInflight hlast fun _ => rfl).trans h.idle
  · rw [eq_of_view State.contents hlast fun _ => rfl, h.inv.contents_pushElem _ hfree]
  · rw [eq_of_view State.free hlast fun _ => rfl, hcount]

/-- PUSH commands in a row, as long as there is room. -/
theorem ProducerReady.run_pushes {s : State} {m : Len} {vs : List Elem} {rest : List Input} (h : ProducerReady s)
    (hi : s.inputs = vs.map (fun v => Input.issue .p (encode (.push m)) v) ++ rest) (hfree : vs.length ≤ s.free) :
    ∃ t, Sys2Proof.core.run vs.length s = .next t ∧ t.inputs = rest ∧ ProducerReady t ∧
      (vs ≠ [] → t.pRsp = some ⟨.ok, 0⟩) ∧
      t.contents = s.contents ++ vs.map (fun v => v % 2 ^ s.params.width) ∧ t.free + vs.length = s.free := by
  induction vs generalizing s with
  | nil => exact ⟨s, rfl, hi, h, by simp, by simp, rfl⟩
  | cons v vs ih =>
    rw [List.length_cons] at hfree
    obtain ⟨u, hstep, hin, hrsp, hready, hcont, hroom⟩ := h.step_push hi (by omega)
    obtain ⟨t, hrun, hin', hready', hrsp', hcont', hroom'⟩ := ih hready hin (by omega)
    refine ⟨t, run_succ_iff.2 ⟨u, hstep, hrun⟩, hin', hready', fun _ => ?_, ?_, ?_⟩
    · cases vs with
      | nil =>
        cases hrun
        exact hrsp
      | cons w vs => exact hrsp' (by simp)
    · rw [hcont', hcont, step_params hstep]
      simp
    · rw [List.length_cons]
      omega

@[simp] theorem pushblkElement_readPbuf (s : State) (i : Nat) : (pushblkElement s).readPbuf i = s.readPbuf i := by
  obtain ⟨-, e⟩ | ⟨r, -, -, e⟩ | ⟨r, -, -, e⟩ := pushblkElement_cases s <;> simp [e]

/-- The element steps of a PUSHBLK in flight with `j` elements to go, one after another. -/
theorem run_pushblkElements {j : Nat} {s : State} {r : PushInflight} {rest : List Input} (h : s.Inv)
    (hs : s.resetSeen = true) (hr : s.pInflight = some r) (hj : r.i + j = r.n)
    (hi : s.inputs = List.replicate j (.advance .p) ++ rest) :
    ∃ t, Sys2Proof.core.run j s = .next t ∧ t.pRsp = some ⟨.ok, 0⟩ ∧ t.pInflight = none ∧ t.inputs = rest ∧
      t.contents = s.contents ++ (List.range j).map (fun k => s.readPbuf (r.i + k)) := by
  induction j generalizing s r with
  | zero =>
    obtain ⟨hlt, -⟩ := h.push_inflight r hr
    omega
  | succ j ih =>
    let u := newStep (setInputs (List.replicate j (.advance .p) ++ rest) s)
    have hu : u.Inv := (h.setInputs _).newStep
    have hstep : step s = .next (pushblkElement u) := step_advance hi hs
    obtain ⟨hin, hseen⟩ := elementStep_inputs_resetSeen .p u
    have hcont : (pushblkElement u).contents = s.contents ++ [s.readPbuf r.i] := hu.contents_pushblkElement hr
    by_cases hlast : r.i + 1 = r.n
    · obtain rfl : j = 0 := by omega
      have e : pushblkElement u = respond .p .ok 0 (setPInflight none (pushElem (u.readPbuf r.i) u)) :=
        pushblkElement_last hr hlast
      exact ⟨_, run_succ_iff.2 ⟨_, hstep, rfl⟩, by rw [e]; rfl, by rw [e]; rfl, hin, by simp [hcont]⟩
    · have hnext : (pushblkElement u).pInflight = some ⟨r.n, r.i + 1⟩ := by
        rw [pushblkElement_more (s := u) hr hlast]
        rfl
      obtain ⟨t, hrun, hrsp, hidle, hrest, hcont'⟩ :=
        ih (pushblkElement_inv hu) (hseen.trans hs) hnext (by dsimp only; omega) hin
      refine ⟨t, run_succ_iff.2 ⟨_, hstep, hrun⟩, hrsp, hidle, hrest, ?_⟩
      simp [hcont', hcont, u, List.range_succ_eq_map, Nat.add_assoc, Nat.add_comm 1]

/-- The element steps of a POPBLK in flight with `j` elements to go, one after another. -/
theorem run_popblkElements {j : Nat} {s : State} {r : PopInflight} {rest : List Input} (h : s.Inv)
    (hs : s.resetSeen = true) (hr : s.cInflight = some r) (hj : r.i + j = r.count)
    (hi : s.inputs = List.replicate j (.advance .c) ++ rest) :
    ∃ t, Sys2Proof.core.run j s = .next t ∧ t.cRsp = some ⟨.ok, BitVec.ofNat 16 r.count⟩ ∧ t.cInflight = none ∧
      t.inputs = rest ∧ (List.range j).map (fun k => t.readCbuf (r.i + k)) = s.contents.take j ∧
      t.contents = s.contents.drop j ∧ ∀ a, (a < r.i ∨ r.i + j ≤ a) → t.readCbuf a = s.readCbuf a := by
  induction j generalizing s r with
  | zero =>
    obtain ⟨hlt, -⟩ := h.pop_inflight r hr
    omega
  | succ j ih =>
    let u := newStep (setInputs (List.replicate j (.advance .c) ++ rest) s)
    have hu : u.Inv := (h.setInputs _).newStep
    have hstep : step s = .next (popblkElement u) := step_advance hi hs
    obtain ⟨hin, hseen⟩ := elementStep_inputs_resetSeen .c u
    have hcont : s.contents = s.readMem s.rd :: (popblkElement u).contents := hu.contents_popblkElement hr
    have hsame : (popblkElement u).readCbuf r.i = s.readMem s.rd := readCbuf_popblkElement_same (s := u) hr
    have hother : ∀ a, a ≠ r.i → (popblkElement u).readCbuf a = s.readCbuf a :=
      fun a ha => readCbuf_popblkElement_other (s := u) hr ha
    by_cases hlast : r.i + 1 = r.count
    · obtain rfl : j = 0 := by omega
      have e : popblkElement u = respond .c .ok r.count
          (setCInflight none (popElem (setCbuf (u.cbuf.write r.i (u.readMem u.rd)) u))) :=
        popblkElement_last hr hlast
      refine ⟨_, run_succ_iff.2 ⟨_, hstep, rfl⟩, by rw [e]; rfl, by rw [e]; rfl, hin, by simp [hcont, hsame],
        by simp [hcont], fun a ha => hother a (by omega)⟩
    · have hnext : (popblkElement u).cInflight = some ⟨r.count, r.i + 1⟩ := by
        rw [popblkElement_more (s := u) hr hlast]
        rfl
      obtain ⟨t, hrun, hrsp, hidle, hrest, hmoved, hleft, hkept⟩ :=
        ih (popblkElement_inv hu) (hseen.trans hs) hnext (by dsimp only; omega) hin
      dsimp only at hrsp hmoved hkept
      refine ⟨t, run_succ_iff.2 ⟨_, hstep, hrun⟩, hrsp, hidle, hrest, ?_, by simp [hleft, hcont], fun a ha => ?_⟩
      · have hfirst : t.readCbuf r.i = s.readMem s.rd := (hkept r.i (by omega)).trans hsame
        rw [hcont, List.take_succ_cons, ← hmoved]
        simp [hfirst, List.range_succ_eq_map, Nat.add_assoc, Nat.add_comm 1]
      · exact (hkept a (by omega)).trans (hother a (by omega))

end Sys2Proof.Machine

namespace Sys2Proof.Proofs

open Sys2Proof Sys2Proof.Machine

/-- Settles O50, by induction on the number of steps: each step's event is replayed by `step_queueMove`. -/
theorem queueKeepsOrder : Obligations.QueueKeepsOrder := fun _ _ _ h hrun => replay_eventsOf h hrun

/-- Settles O51: by `stored_eq_returned_append`, what is stored is what is returned followed by what the queue holds. -/
theorem returnedIsPrefixOfStored : Obligations.ReturnedIsPrefixOfStored := by
  unfold Obligations.ReturnedIsPrefixOfStored
  intro k s t h hempty hrun hes
  have hstart : s.contents = [] := contents_of_occ_zero ((empty_iff h.rd_lt h.wr_lt).1 hempty)
  have hreplay := replay_eventsOf h hrun
  rw [hstart] at hreplay
  exact ⟨t.contents, (stored_eq_returned_append hes hreplay).symm⟩

/-- Settles O16: past the checks PUSH is `pushRule`, whose two arms are told apart by `full`. -/
theorem pushAppendsOrFails : Obligations.PushAppendsOrFails := by
  unfold Obligations.PushAppendsOrFails
  intro len s
  have haccepted : s.port = .p → exec (.push len) s = .next (pushRule s) :=
    fun hp => exec_accepted (by simp [hp, Instr.ports]) rfl
  refine ⟨decodeWord_encode (.push len), fun hp => ?_, fun hp hfull => ?_, fun hp hroom => ?_⟩
  · exact exec_answersOnly rfl (exec_illFormed (by simp [Instr.wellFormed_eq, Instr.ports, hp]))
  · have hf : s.full = true := by simpa [State.full] using hfull
    exact exec_answersOnly hp ((haccepted hp).trans (congrArg _ (pushRule_full hf)))
  · have hf : s.full = false := by simpa [State.full] using hroom
    refine ⟨respond .p .ok 0 (pushElem s.pWdata s), ?_, respond_rsp_same .., ?_, rfl, rfl, rfl, rfl,
      (pushElem_frame s.pWdata s).respond .ok 0, fun h => ?_⟩
    · rw [haccepted hp, pushRule_room hf, hp]
    · rw [respond_readMem, readMem_pushElem_same]
    · have hw : (pushElem s.pWdata s).wr < s.params.capacity := bump_lt h.capacity_pos
      have hiff := full_iff (s := pushElem s.pWdata s) h.rd_lt hw
      obtain ⟨hocc, -⟩ := h.counts_pushElem s.pWdata (h.free_pos hf)
      rw [respond_occ, respond_empty, respond_full]
      refine ⟨hocc, empty_pushElem _ hf, ?_⟩
      rw [hiff, pushElem_params]
      omega

/-- Settles O17, by the three arms of `pushblkRule`. -/
theorem pushblkCheckStep : Obligations.PushblkCheckStep := by
  unfold Obligations.PushblkCheckStep
  intro len s hp
  have haccepted : exec (.pushblk len) s = .next (pushblkRule len.toNat s) :=
    exec_accepted (by simp [hp, Instr.ports]) rfl
  refine ⟨fun hshort => ?_, fun hzero => ?_, fun hne hfits => ?_⟩
  · exact exec_answersOnly hp (haccepted.trans (congrArg _ (pushblkRule_short hshort)))
  · rw [hzero] at haccepted
    exact exec_answersOnly hp (haccepted.trans (congrArg _ pushblkRule_zero))
  · refine ⟨_, haccepted.trans (congrArg _ (pushblkRule_fits hne hfits)), ?_⟩
    exact ⟨rfl, setPInflight_rsp .., rfl, rfl, rfl, (Frame.refl ..).setPInflight _⟩

/-- Settles O18: the step is `pushblkElement` after the responses have gone. -/
theorem pushblkElementStep : Obligations.PushblkElementStep := by
  unfold Obligations.PushblkElementStep
  intro s r hx hs hr
  let u := newStep (setInputs s.inputs.tail s)
  have hu : u.pInflight = some r := hr
  obtain ⟨-, hpop, -⟩ := elementStep_writesOnly .p u
  obtain ⟨hrd, -, hcin⟩ := hpop (by decide)
  refine ⟨pushblkElement u, step_elementPort hx hs, readMem_pushblkElement hu, wr_pushblkElement hu, hrd, hcin,
    fun hlast => ?_, fun hmore => ?_, pushblkElement_frame hu⟩
  · rw [pushblkElement_last hu hlast]
    exact ⟨by simp, respond_rsp_same ..⟩
  · rw [pushblkElement_more hu hmore]
    exact ⟨rfl, by simp [u]⟩

/-- Settles O19: the success arm of POP takes the oldest element off the contents. -/
theorem popReturnsOldest : Obligations.PopReturnsOldest := by
  unfold Obligations.PopReturnsOldest
  intro len s hp hne
  have he : s.empty = false := by simpa [State.empty] using hne
  refine ⟨setRdata (s.readMem s.rd) (respond .c .ok 0 (popElem s)), ?_, rfl, rfl, rfl, rfl, rfl, rfl,
    ((popElem_frame s).respond .ok 0).setRdata _, fun h => ⟨?_, ?_⟩⟩
  · rw [exec_accepted (by simp [hp, Instr.ports]) rfl, ruleOf, popRule_nonempty he, hp]
  · simpa using h.contents_popElem (h.occ_pos he)
  · simpa using h.full_popElem he

/-- Settles O21, by the two arms of `popblkRule`. -/
theorem popblkCountStep : Obligations.PopblkCountStep := by
  unfold Obligations.PopblkCountStep
  intro len s hp
  have haccepted : exec (.popblk len) s = .next (popblkRule len.toNat s) :=
    exec_accepted (by simp [hp, Instr.ports]) rfl
  refine ⟨fun hzero => ?_, fun hne => ?_⟩
  · exact exec_answersOnly hp (haccepted.trans (congrArg _ (popblkRule_nothing hzero)))
  · refine ⟨_, haccepted.trans (congrArg _ (popblkRule_some hne)), ?_⟩
    exact ⟨rfl, setCInflight_rsp .., rfl, rfl, rfl, (Frame.refl ..).setCInflight _⟩

/-- Settles O22: the step is `popblkElement` after the responses have gone. -/
theorem popblkElementStep : Obligations.PopblkElementStep := by
  unfold Obligations.PopblkElementStep
  intro s r hx hs hr
  let u := newStep (setInputs s.inputs.tail s)
  have hu : u.cInflight = some r := hr
  obtain ⟨hpush, -⟩ := elementStep_writesOnly .c u
  obtain ⟨hwr, -, -, hpin⟩ := hpush (by decide)
  refine ⟨popblkElement u, step_elementPort hx hs, readCbuf_popblkElement_same hu, rd_popblkElement hu, hwr, hpin,
    fun hlast => ?_, fun hmore => ?_, popblkElement_frame hu⟩
  · rw [popblkElement_last hu hlast]
    exact ⟨by simp, respond_rsp_same ..⟩
  · rw [popblkElement_more hu hmore]
    exact ⟨rfl, by simp [u]⟩

/-- Settles O23: the answer is the count alone, and it has at most 16 bits. -/
theorem freeReportsFreeSlots : Obligations.FreeReportsFreeSlots := by
  unfold Obligations.FreeReportsFreeSlots
  intro len s hp
  obtain ⟨t, he, hrsp, hsame, hframe⟩ :=
    exec_answersOnly rfl (exec_accepted (i := .free len) (s := s) (by simpa [Instr.ports] using hp) rfl)
  exact ⟨t, he, hrsp, hsame, hframe, fun h => Nat.mod_eq_of_lt h.counts_lt.2⟩

/-- Settles O24: the answer is the count alone, and it has at most 16 bits. -/
theorem occReportsOccupied : Obligations.OccReportsOccupied := by
  unfold Obligations.OccReportsOccupied
  intro len s hp
  obtain ⟨t, he, hrsp, hsame, hframe⟩ :=
    exec_answersOnly rfl (exec_accepted (i := .occ len) (s := s) (by simpa [Instr.ports] using hp) rfl)
  exact ⟨t, he, hrsp, hsame, hframe, fun h => Nat.mod_eq_of_lt h.counts_lt.1⟩

/-- Settles O25: both answers are exact under the invariant, and there the two counts add up. -/
theorem freeAndOccResultsAddUp : Obligations.FreeAndOccResultsAddUp := by
  unfold Obligations.FreeAndOccResultsAddUp
  intro m n s h hp
  obtain ⟨t, ht, htrsp, -, -, hfree⟩ := freeReportsFreeSlots m s hp
  obtain ⟨u, hu, hursp, -, -, hocc⟩ := occReportsOccupied n s hp
  refine ⟨t, u, _, _, ht, hu, htrsp, hursp, ?_⟩
  rw [hfree h, hocc h, Nat.add_comm]
  exact h.occ_add_free

/-- Settles O26: with `RD = WR` the queue holds nothing. -/
theorem clearEmptiesQueue : Obligations.ClearEmptiesQueue := by
  unfold Obligations.ClearEmptiesQueue
  intro len s hp
  refine ⟨respond .c .ok 0 (discardAll s), ?_, rfl, rfl, rfl, rfl, rfl, (discardAll_frame s).respond .ok 0, ?_, ?_, ?_, ?_,
    fun h => ?_⟩
  · rw [exec_accepted (by simp [hp, Instr.ports]) rfl, ruleOf, clearRule, hp]
  · simp
  · simp [State.free]
  · simp [State.empty]
  · simp
  · have hcap := Params.two_le_capacity h.params_ok
    rw [respond_full, ← Bool.not_eq_true, full_iff (s := discardAll s) h.wr_lt h.wr_lt, discardAll_occ, discardAll_params]
    omega

/-- Settles O49: an element is stored by no step of the consumer and taken away by none of the producer's, and the other
steps write neither index. -/
theorem countsGoStaleOneWay : Obligations.CountsGoStaleOneWay := by
  unfold Obligations.CountsGoStaleOneWay
  intro s t h hstep
  have hmove := step_queueMove h hstep
  have hparams := step_params hstep
  have unmoved : (t.wr = s.wr ∧ t.rd = s.rd) → t.occ = s.occ ∧ t.free = s.free :=
    fun ⟨hwr, hrd⟩ => ⟨occ_congr hwr hrd hparams, free_congr hwr hrd hparams⟩
  refine ⟨fun hc => ?_, hmove.occ_le_of_producer, fun hother => unmoved ?_⟩
  · have hocc := hmove.occ_le_of_consumer hc
    rw [State.free, State.free, hparams]
    omega
  · obtain hk | hb | ⟨hi, hx⟩ := hother
    · obtain ⟨hpush, hpop, -⟩ := step_writesOnly hk hstep
      exact ⟨(hpush (by decide)).1, (hpop (by decide)).1⟩
    · obtain ⟨hpush, hpop, -⟩ := step_writesOnly hb hstep
      exact ⟨(hpush (by decide)).1, (hpop (by decide)).1⟩
    · rw [step_nothing hi hx (resetSeen_of_step (by simp [hi]) hstep)] at hstep
      cases hstep
      exact ⟨rfl, rfl⟩

/-- Settles O52: `ProducerReady.run_pushes` on the first elements; after `CAPACITY - 1` of them no slot is free. -/
theorem capacityBoundary : Obligations.CapacityBoundary := by
  unfold Obligations.CapacityBoundary
  intro s vs m h hs hidle hempty hlen hi
  have hocc : s.occ = 0 := (empty_iff h.rd_lt h.wr_lt).1 hempty
  have hsum := h.occ_add_free
  have hcap := h.capacity_pos
  have hfirst : ∀ k, k ≤ s.params.capacity - 1 → ∃ t, Sys2Proof.core.run k s = .next t ∧
      t.inputs = (vs.drop k).map (fun v => Input.issue .p (encode (.push m)) v) ∧ ProducerReady t ∧
      (k ≠ 0 → t.pRsp = some ⟨.ok, 0⟩) ∧
      t.contents = (vs.take k).map (fun v => v % 2 ^ s.params.width) ∧ t.free + k = s.free := by
    intro k hk
    have htake : (vs.take k).length = k := by
      rw [List.length_take]
      omega
    have hin : s.inputs = (vs.take k).map (fun v => Input.issue .p (encode (.push m)) v) ++
        (vs.drop k).map (fun v => Input.issue .p (encode (.push m)) v) := by
      rw [← List.map_append, List.take_append_drop, hi]
    obtain ⟨t, hrun, hrest, hready, hrsp, hcont, hfree⟩ := ProducerReady.run_pushes ⟨h, hs, hidle⟩ hin (by omega)
    rw [htake] at hrun hfree
    refine ⟨t, hrun, hrest, hready, fun hk0 => hrsp fun hnil => hk0 ?_, ?_, hfree⟩
    · rw [← htake, hnil, List.length_nil]
    · rw [hcont, contents_of_occ_zero hocc, List.nil_append]
  constructor
  · intro k hk
    obtain ⟨t, hrun, -, -, hrsp, hcont, -⟩ := hfirst (k + 1) hk
    exact ⟨t, hrun, hrsp (by omega), hcont⟩
  · obtain ⟨t, hrun, hin, hready, -, hcont, hfree⟩ := hfirst _ le_rfl
    have hone : (vs.drop (s.params.capacity - 1)).length = 1 := by
      rw [List.length_drop]
      omega
    obtain ⟨v, hv⟩ := List.length_eq_one_iff.1 hone
    rw [hv] at hin
    have hfull : t.full = true := by
      rw [hready.inv.full_iff_free]
      omega
    obtain ⟨u, hstep, -, hrsp, hlast⟩ := step_push_full (u := t) hin rfl hready.resetSeen hready.idle hfull
    have hrun' := run_snoc hrun hstep
    rw [Nat.sub_add_cancel hcap] at hrun'
    exact ⟨t, u, hrun, hrun', hrsp, hlast, (eq_of_view State.contents hlast fun _ => rfl).trans hcont⟩

/-- Settles O53: the check step lets the block in, and `run_pushblkElements` runs it to its end. -/
theorem pushblkAppendsBlock : Obligations.PushblkAppendsBlock := by
  unfold Obligations.PushblkAppendsBlock
  intro s len v rest h hs hidle hfits hi
  let u := issued .p v (List.replicate len.toNat (.advance .p) ++ rest) s
  have hu : u.Inv := h.issued ..
  have hstep : step s = .next (pushblkRule len.toNat u) := by
    rw [step_issue hi hs (busy_p_of_idle hidle), decodeWord_encode]
    exact exec_accepted (by simp [Instr.ports]) rfl
  rw [Nat.add_comm]
  by_cases hzero : len.toNat = 0
  · rw [hzero, pushblkRule_zero] at hstep
    rw [hzero]
    have hrun : Sys2Proof.core.run 1 s = .next (respond u.port .ok 0 u) := run_succ_iff.2 ⟨_, hstep, rfl⟩
    exact ⟨_, hrun, respond_rsp_same .p .ok 0 u, by simp [u, hidle], by simp [u, hzero], by simp [u]⟩
  · rw [pushblkRule_fits hzero (by simpa [u] using hfits)] at hstep
    obtain ⟨t, hrun, hrsp, hdone, hrest, hcont⟩ := run_pushblkElements (s := setPInflight (some ⟨len.toNat, 0⟩) u)
      (step_inv h hstep) (by simp [u, hs]) (setPInflight_pInflight ..) (Nat.zero_add _) (issued_inputs ..)
    refine ⟨t, run_succ_iff.2 ⟨_, hstep, hrun⟩, hrsp, hdone, hrest, ?_⟩
    simpa [u] using hcont

/-- Settles O54: the count step fixes the count, and `run_popblkElements` runs the block to its end. -/
theorem popblkTakesOldest : Obligations.PopblkTakesOldest := by
  unfold Obligations.PopblkTakesOldest
  intro s len v rest h hs hidle hi
  obtain ⟨n, hn⟩ : ∃ n, n = min s.occ len.toNat := ⟨_, rfl⟩
  rw [← hn] at hi
  let u := issued .c v (List.replicate n (.advance .c) ++ rest) s
  have hmin : min u.occ len.toNat = n := by simp [u, hn]
  have hstep : step s = .next (popblkRule len.toNat u) := by
    rw [step_issue hi hs (busy_c_of_idle hidle), decodeWord_encode]
    exact exec_accepted (by simp [Instr.ports]) rfl
  by_cases hzero : n = 0
  · rw [popblkRule_nothing (hmin.trans hzero)] at hstep
    have hrun : Sys2Proof.core.run 1 s = .next (respond u.port .ok 0 u) := run_succ_iff.2 ⟨_, hstep, rfl⟩
    exact ⟨_, 0, hzero.symm.trans hn, hrun, respond_rsp_same .c .ok 0 u, by simp [u, hidle], by simp [u, hzero],
      by simp, by simp [u], by simp [u]⟩
  · rw [popblkRule_some (by rwa [hmin]), hmin] at hstep
    obtain ⟨t, hrun, hrsp, hdone, hrest, hmoved, hleft, hkept⟩ := run_popblkElements (s := setCInflight (some ⟨n, 0⟩) u)
      (step_inv h hstep) (by simp [u, hs]) (setCInflight_cInflight ..) (Nat.zero_add _) (issued_inputs ..)
    refine ⟨t, n, hn, ?_, hrsp, hdone, hrest, by simpa [u] using hmoved, by simpa [u] using hleft, fun a ha => ?_⟩
    · rw [Nat.add_comm]
      exact run_succ_iff.2 ⟨_, hstep, hrun⟩
    · simpa [u] using hkept a (by simpa using ha)

/-- Settles O15: NOP is accepted on all four ports and only answers. -/
theorem nopAnswersOk : Obligations.NopAnswersOk := by
  unfold Obligations.NopAnswersOk
  intro len s
  have hport : s.port ∈ (Instr.nop len).ports := by cases s.port <;> simp [Instr.ports]
  exact exec_answersOnly rfl (exec_accepted hport rfl)

/-- Settles O20: the failing arm of `popRule` only answers. -/
theorem popOnEmptyFails : Obligations.PopOnEmptyFails := by
  unfold Obligations.PopOnEmptyFails
  intro len s hp hempty
  have he : s.empty = true := by simpa [State.empty] using hempty
  have haccepted : exec (.pop len) s = .next (popRule s) := exec_accepted (by simp [hp, Instr.ports]) rfl
  exact exec_answersOnly hp (haccepted.trans (congrArg _ (popRule_empty he)))

/-- Settles O48: what is left of a block in flight fits the free slots, or is queued. -/
theorem elementStepsNeverBlocked : Obligations.ElementStepsNeverBlocked := by
  unfold Obligations.ElementStepsNeverBlocked
  refine fun s h => ⟨fun r hr => ?_, fun r hr => ?_⟩
  · have hfree := h.free_pos_of_inflight hr
    rw [← Bool.not_eq_true, h.full_iff_free]
    omega
  · have hocc := h.occ_pos_of_inflight hr
    rw [← Bool.not_eq_true, empty_iff h.rd_lt h.wr_lt]
    omega

end Sys2Proof.Proofs
end

section
/-! PROOFS. The family of 41_crc32.md: what CRC32 answers and what its answer depends on; no pass of its loop loses a bit. -/

namespace Sys2Proof.Machine

/-! ### The command (41_crc32.md R100) -/

theorem exec_crc32 {len : Len} {s : State} (hp : s.port = .k) (hlen : len.toNat ≤ s.params.maxSpan) :
    exec (.crc32 len) s = .next (crc32Rule len.toNat s) :=
  exec_accepted (by simp [hp, Instr.ports]) (decide_eq_true hlen)

@[simp] theorem crc32Rule_kCrc (n : Nat) (s : State) : (crc32Rule n s).kCrc = crc32 (kbufSpan s n) := rfl

theorem kbufSpan_congr {s t : State} {n : Nat} (h : ∀ i, i < n → s.readKbuf i = t.readKbuf i) :
    kbufSpan s n = kbufSpan t n :=
  List.map_congr_left fun i hi => h i (List.mem_range.1 hi)

/-! ### No pass loses a bit (41_crc32.md R101) -/

/-- The bit that a pass shifts out comes back as the top bit, since the polynomial's top bit is set. -/
theorem crcBit_top (c : Crc) : (crcBit c).getLsbD 31 = c.getLsbD 0 := by
  unfold crcBit
  split
  · next h => simp [h]
  · next h => simpa using h

/-- With its bit 0 a register is known from the register shifted right. -/
theorem eq_of_bit_zero_of_shift {c d : Crc} (hlow : c.getLsbD 0 = d.getLsbD 0) (hrest : c >>> 1 = d >>> 1) : c = d := by
  refine BitVec.eq_of_getLsbD_eq fun i _ => ?_
  cases i with
  | zero => exact hlow
  | succ j => simpa [Nat.add_comm 1] using congrArg (fun r => r.getLsbD j) hrest

theorem crcBit_injective : Function.Injective crcBit := by
  intro c d h
  have hlow : c.getLsbD 0 = d.getLsbD 0 := by rw [← crcBit_top, h, crcBit_top]
  refine eq_of_bit_zero_of_shift hlow ?_
  unfold crcBit at h
  rw [hlow] at h
  split at h
  · exact (BitVec.xor_left_inj _).1 h
  · exact h

theorem crcBits_injective : ∀ k, Function.Injective (crcBits k)
  | 0 => Function.injective_id
  | k + 1 => (crcBits_injective k).comp crcBit_injective

theorem crcByte_injective_register (b : Byte) : Function.Injective fun c => crcByte c b := fun _ _ h =>
  (BitVec.xor_left_inj _).1 (crcBits_injective 8 h)

theorem zeroExtend_byte_injective : Function.Injective fun b : Byte => b.zeroExtend 32 :=
  Function.LeftInverse.injective (g := BitVec.setWidth 8) fun b => by simp

theorem crcByte_injective_byte (c : Crc) : Function.Injective (crcByte c) := fun _ _ h =>
  zeroExtend_byte_injective ((BitVec.xor_right_inj _).1 (crcBits_injective 8 h))

/-- The bytes after a point carry two different registers there to two different registers. -/
theorem foldl_crcByte_injective (span : List Byte) : Function.Injective fun c => span.foldl crcByte c := by
  induction span with
  | nil => exact Function.injective_id
  | cons b rest ih => exact ih.comp (crcByte_injective_register b)

end Sys2Proof.Machine

namespace Sys2Proof.Proofs

open Sys2Proof Sys2Proof.Machine

/-- Settles O27: past the checks CRC32 only answers, and puts the checksum beside the answer. -/
theorem crc32AnswersChecksum : Obligations.Crc32AnswersChecksum := by
  unfold Obligations.Crc32AnswersChecksum
  intro len s hp hlen
  refine ⟨_, exec_crc32 hp hlen, ?_, crc32Rule_kCrc .., ?_, ?_⟩ <;> rw [crc32Rule, hp]
  · exact (setCrc_rsp ..).trans (respond_rsp_same ..)
  · exact respond_sameIndices ..
  · exact (respond_frame .k .ok 0 s).setCrc _

/-- Settles O29: the checksum is a function of the span alone. -/
theorem crc32DependsOnSpanOnly : Obligations.Crc32DependsOnSpanOnly := by
  unfold Obligations.Crc32DependsOnSpanOnly
  intro len s t s' t' hs ht hslen htlen hspan hs' ht'
  cases (exec_crc32 hs hslen).symm.trans hs'
  cases (exec_crc32 ht htlen).symm.trans ht'
  rw [crc32Rule_kCrc, crc32Rule_kCrc, kbufSpan_congr hspan]

/-- Settles O30: the two registers are equal before the changed byte, differ after it, and the bytes behind it keep them
apart. -/
theorem crc32SeesOneChangedByte : Obligations.Crc32SeesOneChangedByte := by
  unfold Obligations.Crc32SeesOneChangedByte
  intro front back a b hab h
  rw [crc32, crc32, BitVec.not_inj, List.foldl_append, List.foldl_append, List.foldl_cons, List.foldl_cons] at h
  exact hab (crcByte_injective_byte _ (foldl_crcByte_injective back h))

/-- Settles O28, by evaluating the checksum of the two spans. -/
theorem crc32CheckValues : Obligations.Crc32CheckValues := by
  unfold Obligations.Crc32CheckValues
  decide +kernel

end Sys2Proof.Proofs
end

section
/-! PROOFS. The family of 42_cobs.md: an encoding is a sequence of runs, which the decoder takes run by run; what COBSENC
and COBSDEC answer and write. -/

namespace Sys2Proof.Machine

/-! ### The encoding is a sequence of runs (42_cobs.md R110, R112) -/

/-- The runs of `encodeFrom`: those that the rest of a record closes, with the data bytes of the open run. -/
def encodeRuns : List Byte → List Byte → List (List Byte)
  | run, [] => [run]
  | run, b :: bs =>
    if b = 0#8 then run :: encodeRuns [] bs
    else if run.length + 1 = 254 then (run ++ [b]) :: encodeRuns [] bs
    else encodeRuns (run ++ [b]) bs

/-- A zero closes the run (42_cobs.md R112). -/
theorem encodeRuns_zero (run bs : List Byte) : encodeRuns run (0#8 :: bs) = run :: encodeRuns [] bs := by
  rw [encodeRuns, if_pos rfl]

section
variable {b : Byte} {run bs : List Byte} (hb : b ≠ 0#8)
include hb

/-- The 254th data byte closes the run (42_cobs.md R114). -/
theorem encodeRuns_force (hfull : run.length + 1 = 254) :
    encodeRuns run (b :: bs) = (run ++ [b]) :: encodeRuns [] bs := by
  rw [encodeRuns, if_neg hb, if_pos hfull]

/-- Any other byte is copied into the run (42_cobs.md R112). -/
theorem encodeRuns_data (hroom : run.length + 1 ≠ 254) : encodeRuns run (b :: bs) = encodeRuns (run ++ [b]) bs := by
  rw [encodeRuns, if_neg hb, if_neg hroom]

end

theorem encodeFrom_eq_flatMap (run bs : List Byte) : encodeFrom run bs = (encodeRuns run bs).flatMap runBytes := by
  induction bs generalizing run with
  | nil => simp [encodeFrom, encodeRuns]
  | cons b bs ih =>
    rw [encodeFrom, encodeRuns]
    split_ifs
    · rw [List.flatMap_cons, ih]
    · rw [List.flatMap_cons, ih]
    · exact ih _

theorem cobsEncode_eq_flatMap (record : List Byte) : cobsEncode record = (encodeRuns [] record).flatMap runBytes := by
  rw [cobsEncode_eq_encodeFrom, encodeFrom_eq_flatMap]

/-- The last run is never closed. -/
theorem encodeRuns_ne_nil (run bs : List Byte) : encodeRuns run bs ≠ [] := by
  induction bs generalizing run with
  | nil => simp [encodeRuns]
  | cons b bs ih =>
    rw [encodeRuns]
    split_ifs
    · exact List.cons_ne_nil _ _
    · exact List.cons_ne_nil _ _
    · exact ih _

/-- A run of the encoder's form: at most 254 data bytes, none of them zero (42_cobs.md R110). -/
def EncodedRun (run : List Byte) : Prop := run.length ≤ 254 ∧ 0x00#8 ∉ run

theorem EncodedRun.nil : EncodedRun [] := ⟨Nat.zero_le _, List.not_mem_nil⟩

theorem EncodedRun.snoc {run : List Byte} {b : Byte} (h : EncodedRun run) (hroom : run.length < 254) (hb : b ≠ 0#8) :
    EncodedRun (run ++ [b]) :=
  ⟨by simpa using hroom, by simpa [h.2] using hb.symm⟩

theorem encodedRun_of_mem_encodeRuns {run bs : List Byte} (hroom : run.length < 254) (hrun : EncodedRun run) :
    ∀ r ∈ encodeRuns run bs, EncodedRun r := by
  induction bs generalizing run with
  | nil => simpa [encodeRuns] using hrun
  | cons b bs ih =>
    have hnew : ∀ r ∈ encodeRuns [] bs, EncodedRun r := ih (by decide) .nil
    by_cases hb : b = 0#8
    · rw [hb, encodeRuns_zero]
      exact List.forall_mem_cons.2 ⟨hrun, hnew⟩
    · by_cases hfull : run.length + 1 = 254
      · rw [encodeRuns_force hb hfull]
        exact List.forall_mem_cons.2 ⟨hrun.snoc hroom hb, hnew⟩
      · rw [encodeRuns_data hb hfull]
        exact ih (by simp; omega) (hrun.snoc hroom hb)

theorem encodedRun_of_mem_encodeRuns_nil {record : List Byte} : ∀ r ∈ encodeRuns [] record, EncodedRun r :=
  encodedRun_of_mem_encodeRuns (by decide) .nil

theorem recordOfRuns_cons {rs : List (List Byte)} (h : rs ≠ []) (r : List Byte) :
    recordOfRuns (r :: rs) = r ++ (if r.length = 254 then [] else [0#8]) ++ recordOfRuns rs := by
  cases rs with
  | nil => exact absurd rfl h
  | cons r' rs => rfl

/-- Exactly the runs that a zero closes have less than 254 data bytes, so every zero of the record is given back. -/
theorem recordOfRuns_encodeRuns {run bs : List Byte} (hroom : run.length < 254) :
    recordOfRuns (encodeRuns run bs) = run ++ bs := by
  induction bs generalizing run with
  | nil => simp [encodeRuns, recordOfRuns]
  | cons b bs ih =>
    have hnew : recordOfRuns (encodeRuns [] bs) = bs := ih (by decide)
    have hne : encodeRuns [] bs ≠ [] := encodeRuns_ne_nil _ _
    by_cases hb : b = 0#8
    · rw [hb, encodeRuns_zero, recordOfRuns_cons hne, if_neg (by omega), hnew]
      simp
    · by_cases hfull : run.length + 1 = 254
      · rw [encodeRuns_force hb hfull, recordOfRuns_cons hne, if_pos (by simpa using hfull), hnew]
        simp
      · rw [encodeRuns_data hb hfull, ih (by simp; omega)]
        simp

/-- A record without a zero that fills one run is that run, and then the empty run that the force-close opened
(42_cobs.md R114). -/
theorem encodeRuns_of_full {run bs : List Byte} (hroom : run.length < 254) (hlen : run.length + bs.length = 254)
    (hbs : 0x00#8 ∉ bs) : encodeRuns run bs = [run ++ bs, []] := by
  induction bs generalizing run with
  | nil => simp at hlen; omega
  | cons b bs ih =>
    rw [List.length_cons] at hlen
    obtain ⟨hb, hrest⟩ := not_or.1 (mt List.mem_cons.2 hbs)
    by_cases hfull : run.length + 1 = 254
    · obtain rfl : bs = [] := List.length_eq_zero_iff.1 (by omega)
      rw [encodeRuns_force (Ne.symm hb) hfull, encodeRuns]
    · rw [encodeRuns_data (Ne.symm hb) hfull, ih (by simp; omega) (by simp; omega) hrest]
      simp

/-! ### The counter byte of a run -/

theorem toNat_runCounter {run : List Byte} (h : run.length ≤ 254) :
    (BitVec.ofNat 8 (run.length + 1)).toNat = run.length + 1 := by
  rw [BitVec.toNat_ofNat, Nat.mod_eq_of_lt (by omega)]

theorem runCounter_ne_zero {run : List Byte} (h : run.length ≤ 254) : BitVec.ofNat 8 (run.length + 1) ≠ 0x00#8 := by
  intro h0
  have hnat := toNat_runCounter h
  simp [h0] at hnat

theorem runCounter_eq_ff_iff {run : List Byte} (h : run.length ≤ 254) :
    BitVec.ofNat 8 (run.length + 1) = 0xFF#8 ↔ run.length = 254 := by
  rw [← BitVec.toNat_inj, toNat_runCounter h]
  exact Nat.succ_inj

theorem EncodedRun.zero_notMem_runBytes {run : List Byte} (h : EncodedRun run) : 0x00#8 ∉ runBytes run :=
  mt List.mem_cons.1 (not_or.2 ⟨(runCounter_ne_zero h.1).symm, h.2⟩)

/-! ### The decoder takes run by run (42_cobs.md R118 to R120) -/

theorem cobsDecode_nil : cobsDecode [] = some [] := rfl

theorem cobsDecode_zero_cons (rest : List Byte) : cobsDecode (0x00#8 :: rest) = none := rfl

section
variable {code : Byte} {rest : List Byte}

/-- A counter byte that claims more than the rest. -/
theorem cobsDecode_overrun (h : rest.length < code.toNat - 1) : cobsDecode (code :: rest) = none := by
  rw [cobsDecode, List.length_cons, decodeRuns, if_pos h, ite_self]

/-- A counter byte that claims no more than the rest. The turns left suffice for what follows its run. -/
theorem cobsDecode_fits (h0 : code ≠ 0x00#8) (h : code.toNat - 1 ≤ rest.length) :
    cobsDecode (code :: rest) = (cobsDecode (rest.drop (code.toNat - 1))).map fun out =>
      rest.take (code.toNat - 1) ++
        (if code ≠ 0xFF#8 ∧ rest.drop (code.toNat - 1) ≠ [] then [0x00#8] else []) ++ out := by
  have hturns : (rest.drop (code.toNat - 1)).length ≤ rest.length := by simp
  rw [cobsDecode, List.length_cons, decodeRuns, if_neg h0, if_neg (Nat.not_lt.2 h), cobsDecode]
  dsimp only
  rw [decodeRuns_turns hturns le_rfl]

/-- A counter byte that claims exactly the rest: the last run. -/
theorem cobsDecode_last (h0 : code ≠ 0x00#8) (h : code.toNat - 1 = rest.length) :
    cobsDecode (code :: rest) = some rest := by
  simp [cobsDecode_fits h0 h.le, h, cobsDecode_nil]

/-- A counter byte that claims less than the rest: a run with more after it. -/
theorem cobsDecode_more (h0 : code ≠ 0x00#8) (h : code.toNat - 1 < rest.length) :
    cobsDecode (code :: rest) = (cobsDecode (rest.drop (code.toNat - 1))).map fun out =>
      rest.take (code.toNat - 1) ++ (if code = 0xFF#8 then [] else [0x00#8]) ++ out := by
  have hmore : rest.drop (code.toNat - 1) ≠ [] := mt List.drop_eq_nil_iff.1 (by omega)
  rw [cobsDecode_fits h0 h.le]
  simp [hmore]

end

/-- The decoder reads back the record that any sequence of runs of at most 254 bytes stands for, zero data bytes too. -/
theorem cobsDecode_flatMap_runBytes {runs : List (List Byte)} (h : ∀ r ∈ runs, r.length ≤ 254) :
    cobsDecode (runs.flatMap runBytes) = some (recordOfRuns runs) := by
  induction runs with
  | nil => rfl
  | cons r rs ih =>
    obtain ⟨hr, hrs⟩ := List.forall_mem_cons.1 h
    have hcount : (BitVec.ofNat 8 (r.length + 1)).toNat - 1 = r.length := by rw [toNat_runCounter hr]; rfl
    have h0 := runCounter_ne_zero hr
    rw [List.flatMap_cons, runBytes, List.cons_append]
    cases rs with
    | nil => simpa [recordOfRuns] using cobsDecode_last h0 hcount
    | cons r' rs =>
      rw [cobsDecode_more h0 (by rw [hcount]; simp [runBytes]), hcount, List.drop_left, List.take_left, ih hrs,
        recordOfRuns_cons (List.cons_ne_nil _ _)]
      simp only [runCounter_eq_ff_iff hr, Option.map_some]

/-- Decoding an encoding gives the record back (42_cobs.md R123). -/
theorem cobsDecode_cobsEncode (record : List Byte) : cobsDecode (cobsEncode record) = some record := by
  rw [cobsEncode_eq_flatMap, cobsDecode_flatMap_runBytes fun r hr => (encodedRun_of_mem_encodeRuns_nil r hr).1,
    recordOfRuns_encodeRuns (by decide), List.nil_append]

/-! ### The forced closes of a record without a zero (42_cobs.md R115) -/

theorem forceClosesFrom_of_zero_notMem {code : Nat} {bs : List Byte} (hcode : 1 ≤ code) (hroom : code < 255)
    (hbs : 0x00#8 ∉ bs) : forceClosesFrom code bs = (code + bs.length - 1) / 254 := by
  induction bs generalizing code with
  | nil => rw [forceClosesFrom, List.length_nil]; omega
  | cons b bs ih =>
    obtain ⟨hb, hrest⟩ := not_or.1 (mt List.mem_cons.2 hbs)
    rw [forceClosesFrom, if_neg (Ne.symm hb), List.length_cons]
    by_cases hforce : code + 1 = 255
    · rw [if_pos hforce, ih le_rfl (by decide) hrest]
      omega
    · rw [if_neg hforce, ih (by omega) (by omega) hrest]
      congr 1
      omega

/-! ### What the codec commands answer and write (42_cobs.md R111, R117) -/

/-- The end of both commands when they succeed: `out` to `BOUT` from index 0 on, and its length as the answer. -/
def answerBytes (out : List Byte) (s : State) : State :=
  respond .b .ok out.length (setBout (s.bout.writeSpan 0 out) s)

section
variable (out : List Byte) (s : State)

theorem answerBytes_rsp : (answerBytes out s).rsp .b = some ⟨.ok, BitVec.ofNat 16 out.length⟩ := respond_rsp_same ..

theorem answerBytes_readBout {i : Nat} (hi : i < out.length) : (answerBytes out s).readBout i = out[i] := by
  rw [answerBytes, respond_readBout, setBout_writeSpan_readBout, List.getElem?_eq_getElem hi, Option.getD_some]

theorem answerBytes_readBout_span : (List.range out.length).map (answerBytes out s).readBout = out :=
  List.ext_getElem (by simp) fun i _ hi => by simpa using answerBytes_readBout out s hi

/-- A `BIN` that holds the bytes just written to `BOUT`. -/
theorem binSpan_of_answerBytes {out : List Byte} {s u : State} {n : Nat} (hn : n = out.length)
    (h : ∀ i, i < n → u.readBin i = (answerBytes out s).readBout i) : binSpan u n = out := by
  subst hn
  exact (List.map_congr_left fun i hi => h i (List.mem_range.1 hi)).trans (answerBytes_readBout_span out s)

theorem answerBytes_sameIndices : SameIndices s (answerBytes out s) := respond_sameIndices ..

theorem answerBytes_frame : Frame .b nowhere nowhere (fun a => a < out.length) s (answerBytes out s) :=
  (writeBout_frame out s).respond .ok out.length

end

section
variable {len : Len} {s : State} (hs : s.port = .b)
include hs

theorem exec_cobsenc_answerBytes (hlen : len.toNat ≤ s.params.maxRecord) :
    exec (.cobsenc len) s = .next (answerBytes (cobsEncode (binSpan s len.toNat)) s) := by
  rw [exec_cobsenc_accepted hs (decide_eq_true hlen), cobsencRule, hs]
  rfl

variable (hlen : len.toNat ≤ s.params.maxEncoded)
include hlen

theorem exec_cobsdec_answerBytes {out : List Byte} (hout : cobsDecode (binSpan s len.toNat) = some out) :
    exec (.cobsdec len) s = .next (answerBytes out s) := by
  rw [exec_cobsdec_accepted hs (decide_eq_true hlen), cobsdecRule, hs, count, hout]
  rfl

theorem exec_cobsdec_malformed (hout : cobsDecode (binSpan s len.toNat) = none) :
    exec (.cobsdec len) s = .next (respond .b .decerr 0 (setBout s.bout.unspecify s)) := by
  rw [exec_cobsdec_accepted hs (decide_eq_true hlen), cobsdecRule, hs, count, hout]

end

/-- What stays when the whole of `BOUT` may change (42_cobs.md R121). -/
theorem setBout_frame (m : Memory Byte) (s : State) : Frame .b nowhere nowhere (fun _ => True) s (setBout m s) :=
  { Frame.refl .b nowhere nowhere (fun _ => True) s with
    bout := fun _ ha => absurd trivial ha
    others := fun y _ => setBout_rsp m s y }

/-- The 16-bit count holds the length of the encoding of a record within the limit (00_scope.md R7). -/
theorem toNat_length_cobsEncode {p : Params} (hp : p.ok = true) {record : List Byte} (h : record.length ≤ p.maxRecord) :
    (BitVec.ofNat 16 (cobsEncode record).length).toNat = (cobsEncode record).length := by
  have hfits := length_cobsEncode_le h
  obtain ⟨-, -, -, hmax, -⟩ := Params.ok_iff.1 hp
  rw [BitVec.toNat_ofNat, Nat.mod_eq_of_lt (by omega)]

end Sys2Proof.Machine

namespace Sys2Proof.Proofs

open Sys2Proof Sys2Proof.Machine

/-- Settles O34: the encoding is a sequence of runs, the decoder gives back the record that runs stand for, and each command
writes what its function gives; the count announces the whole encoding, since `MAX_ENCODED` fits in its 16 bits. -/
theorem cobsRoundTrip : Obligations.CobsRoundTrip := by
  unfold Obligations.CobsRoundTrip
  refine ⟨cobsDecode_cobsEncode, fun len m s t u hp hs hlen het hrsp hparams hu hspan => ?_⟩
  have hrecord : (binSpan s len.toNat).length = len.toNat := length_binSpan ..
  have hcount := toNat_length_cobsEncode hp (hrecord.trans_le hlen)
  have hfits : (cobsEncode (binSpan s len.toNat)).length ≤ u.params.maxEncoded :=
    hparams ▸ length_cobsEncode_le (hrecord.trans_le hlen)
  cases (exec_cobsenc_answerBytes hs hlen).symm.trans het
  cases (answerBytes_rsp ..).symm.trans hrsp
  have hdecoded : cobsDecode (binSpan u (BitVec.ofNat 16 (cobsEncode (binSpan s len.toNat)).length).toNat) =
      some (binSpan s len.toNat) := by
    rw [binSpan_of_answerBytes hcount hspan, cobsDecode_cobsEncode]
  refine ⟨_, exec_cobsdec_answerBytes hu (hcount.trans_le hfits) hdecoded, ?_, fun i hi => ?_⟩
  · rw [answerBytes_rsp, hrecord, BitVec.ofNat_toNat, BitVec.setWidth_eq]
  · rw [answerBytes_readBout _ _ (hrecord.symm ▸ hi)]
    simp [binSpan]

/-- Settles O36: the runs are `encodeRuns`, by induction on the record with the open run's data bytes. -/
theorem encodedRecordIsRuns : Obligations.EncodedRecordIsRuns := fun record =>
  ⟨encodeRuns [] record, encodeRuns_ne_nil _ _, encodedRun_of_mem_encodeRuns_nil, cobsEncode_eq_flatMap record,
    recordOfRuns_encodeRuns (by decide)⟩

/-- Settles O31: past the checks COBSENC stores the encoding and answers. -/
theorem cobsencWritesEncoding : Obligations.CobsencWritesEncoding := by
  unfold Obligations.CobsencWritesEncoding
  rintro len s out hs hlen rfl
  exact ⟨_, exec_cobsenc_answerBytes hs hlen, answerBytes_rsp .., answerBytes_readBout_span ..,
    answerBytes_sameIndices .., answerBytes_frame ..⟩

/-- Settles O32: past the checks COBSDEC of a well-formed span stores the record and answers. -/
theorem cobsdecWritesRecord : Obligations.CobsdecWritesRecord := by
  unfold Obligations.CobsdecWritesRecord
  intro len s out hs hlen hout
  exact ⟨_, exec_cobsdec_answerBytes hs hlen hout, answerBytes_rsp .., answerBytes_readBout_span ..,
    answerBytes_sameIndices .., answerBytes_frame ..⟩

/-- Settles O33: past the checks COBSDEC of a malformed span makes `BOUT` unspecified and answers. -/
theorem cobsdecReportsMalformed : Obligations.CobsdecReportsMalformed := by
  unfold Obligations.CobsdecReportsMalformed
  intro len s hs hlen hout
  exact ⟨_, exec_cobsdec_malformed hs hlen hout, respond_rsp_same .., fun _ => rfl, respond_sameIndices ..,
    (setBout_frame _ s).respond .decerr 0⟩

/-- Settles O35: no run has a zero byte, and the lengths follow the counter, which closes a run at 254 data bytes. -/
theorem encodedBytesAndLength : Obligations.EncodedBytesAndLength := by
  unfold Obligations.EncodedBytesAndLength
  intro record
  have hcode : 1 + record.length - 1 = record.length := Nat.add_sub_cancel_left ..
  refine ⟨?_, ?_, ?_, fun hzero => ?_, fun p => length_cobsEncode_le⟩
  · rw [cobsEncode_eq_flatMap]
    simp only [List.mem_flatMap, not_exists, not_and]
    exact fun r hr => (encodedRun_of_mem_encodeRuns_nil r hr).zero_notMem_runBytes
  · rw [cobsEncode_eq_encodeFrom, length_encodeFrom (code := 1) rfl, List.length_nil, Nat.zero_add, forceCloses]
  · exact hcode ▸ forceClosesFrom_le 1 record
  · exact hcode ▸ forceClosesFrom_of_zero_notMem le_rfl (by decide) hzero

/-- Settles O37: each run loses its counter byte and gains at most one zero, the last run none. -/
theorem decodedRecordIsShorter : Obligations.DecodedRecordIsShorter := fun _ _ => length_decodeRuns_le

/-- Settles O38: the four outcomes of one turn of the decoder's loop. -/
theorem decoderTakesRunByRun : Obligations.DecoderTakesRunByRun :=
  ⟨cobsDecode_nil, fun _ rest => ⟨fun h0 => h0 ▸ cobsDecode_zero_cons rest, cobsDecode_overrun, cobsDecode_last,
    cobsDecode_more⟩⟩

/-- Settles O39: both forms are sequences of runs that stand for the same record, and the encoder gives the longer one. -/
theorem decoderAcceptsMore : Obligations.DecoderAcceptsMore := by
  unfold Obligations.DecoderAcceptsMore
  refine ⟨fun data hlen => ?_, by decide, by decide⟩
  have hshort : [data].flatMap runBytes = 0xFF#8 :: data := by simp [runBytes, hlen]
  have hlong : [data, []].flatMap runBytes = 0xFF#8 :: data ++ [0x01#8] := by simp [runBytes, hlen]
  refine ⟨?_, ?_, fun hzero => ?_⟩
  · rw [← hshort, cobsDecode_flatMap_runBytes (by simp [hlen]), recordOfRuns]
  · rw [← hlong, cobsDecode_flatMap_runBytes (by simp [hlen])]
    simp [recordOfRuns, hlen]
  · rw [← hlong, cobsEncode_eq_flatMap, encodeRuns_of_full (by decide) (by simpa using hlen) hzero, List.nil_append]

end Sys2Proof.Proofs
end

section
/-! PROOFS. The family of 60_exceptions.md: how a command can end when it does not succeed, and what that leaves. -/

namespace Sys2Proof.Machine

/-- How the command of port `s.port` can end, in `s`: with no response yet or with OK, whatever it has changed; with a
response alone; or with `BOUT` made unspecified (60_exceptions.md R135). -/
inductive Ending (s : State) : State → Prop
  | noFailure {t : State} (h : ∀ r, t.rsp s.port = some r → r.status = .ok) : Ending s t
  | answeredOnly (st : Status) (h : st ≠ .decerr) : Ending s (respond s.port st 0 s)
  | malformed : Ending s (respond s.port .decerr 0 (setBout s.bout.unspecify s))

section
variable {s : State}

theorem Ending.noResponse {t : State} (h : t.rsp s.port = none) : Ending s t := .noFailure (by simp [h])

/-- A success, whatever the command has stored before it in `u`, and whatever output field it has given after it. -/
theorem Ending.succeeded {t u : State} {n : Nat} (h : t.rsp s.port = (respond s.port .ok n u).rsp s.port) :
    Ending s t :=
  .noFailure fun r hr => by
    cases (h.trans (respond_rsp_same ..)).symm.trans hr
    rfl

theorem ruleOf_ending (i : Instr) (hrsp : s.rsp s.port = none) : Ending s (ruleOf i s) := by
  cases i with
  | nop _ | free _ | occ _ | clear _ | cobsenc _ => exact .succeeded rfl
  | push _ =>
    rw [ruleOf, pushRule]
    split
    · exact .answeredOnly .fail (by decide)
    · exact .succeeded rfl
  | pushblk n =>
    rw [ruleOf, pushblkRule]
    split_ifs
    · exact .answeredOnly .fail (by decide)
    · exact .succeeded rfl
    · exact .noResponse ((setPInflight_rsp ..).trans hrsp)
  | pop _ =>
    rw [ruleOf, popRule]
    split
    · exact .answeredOnly .fail (by decide)
    · exact .succeeded (setRdata_rsp ..)
  | popblk n =>
    rw [ruleOf, popblkRule]
    split
    · exact .succeeded rfl
    · exact .noResponse ((setCInflight_rsp ..).trans hrsp)
  | crc32 n => exact .succeeded (setCrc_rsp ..)
  | cobsdec n =>
    rw [ruleOf, cobsdecRule]
    split
    · exact .malformed
    · exact .succeeded rfl
  | reservedB _ | reservedC _ | reservedD _ | reservedE _ | reservedF _ => exact .answeredOnly .illegal (by decide)

theorem exec_ending {i : Instr} {t : State} (hrsp : s.rsp s.port = none) (h : exec i s = .next t) : Ending s t := by
  cases (exec_eq_carryOut i s).symm.trans h
  obtain ⟨-, -, e⟩ | ⟨-, e⟩ := carryOut_cases i.ports (i.lenFits s.params) (ruleOf i) s <;> rw [e]
  · exact ruleOf_ending i hrsp
  · exact .answeredOnly .illegal (by decide)

end

end Sys2Proof.Machine

namespace Sys2Proof.Proofs

open Sys2Proof Sys2Proof.Machine

/-- Settles O43: a command that does not succeed ends in a response alone, but for COBSDEC, which makes `BOUT` unspecified
before it. -/
theorem failureLeavesStateUnchanged : Obligations.FailureLeavesStateUnchanged := by
  unfold Obligations.FailureLeavesStateUnchanged
  intro i s t r hrsp he hr
  cases exec_ending hrsp he with
  | noFailure h => simp [h r hr]
  | answeredOnly st h =>
    cases (respond_rsp_same ..).symm.trans hr
    simp [h]
  | malformed =>
    cases (respond_rsp_same ..).symm.trans hr
    simp [setBout_same_lasting]

end Sys2Proof.Proofs
end

section
/-! PROOFS. The family of 70_reset_and_hazards.md: what reset leaves and what comes before it, a CLEAR inside a PUSHBLK, and
how long a block command in flight takes to respond. -/

namespace Sys2Proof.Machine

/-! ### Before the first reset (70_reset_and_hazards.md R150) -/

theorem afterFirstReset_unseen {s : State} (hs : s.resetSeen = false) (turn : Host.Outcome State Fault Refusal) :
    afterFirstReset s turn = .refused .beforeFirstReset := by
  simp [afterFirstReset, hs]

theorem accepts_unseen {s : State} (hs : s.resetSeen = false) (x : Port) : accepts x s = false := by
  simp [accepts, hs]

/-! ### A CLEAR issued (40_fifo.md R87) -/

theorem step_clear {s : State} {len : Len} {v : Elem} {rest : List Input}
    (hi : s.inputs = .issue .c (encode (.clear len)) v :: rest) (hs : s.resetSeen = true) (hidle : s.cInflight = none) :
    step s = .next (respond .c .ok 0 (discardAll (issued .c v rest s))) := by
  rw [step_issue hi hs (busy_c_of_idle hidle), decodeWord_encode, exec_accepted (by simp [Instr.ports]) rfl]
  rfl

/-! ### Idle turns with a block in flight (log 2) -/

theorem elementPort_idle_p {s : State} {r : PushInflight} (hi : s.inputs = []) (hr : s.pInflight = some r) :
    s.elementPort = some .p := by
  simp [State.elementPort, State.busy, hi, hr]

theorem elementPort_idle_c {s : State} {r : PopInflight} (hi : s.inputs = []) (hp : s.pInflight = none)
    (hr : s.cInflight = some r) : s.elementPort = some .c := by
  simp [State.elementPort, State.busy, hi, hp, hr]

/-- Idle turns carry a PUSHBLK with `j + 1` elements to go to its response. -/
theorem run_idle_pushblk {j : Nat} {s : State} {r : PushInflight} (hs : s.resetSeen = true) (hi : s.inputs = [])
    (hr : s.pInflight = some r) (hj : r.i + (j + 1) = r.n) :
    ∃ t, Sys2Proof.core.run (j + 1) s = .next t ∧ t.pInflight = none ∧ t.pRsp = some ⟨.ok, 0⟩ ∧
      t.cInflight = s.cInflight := by
  induction j generalizing s r with
  | zero =>
    obtain ⟨t, hstep, -, -, -, hc, hlast, -⟩ := Proofs.pushblkElementStep s r (elementPort_idle_p hi hr) hs hr
    obtain ⟨hdone, hrsp⟩ := hlast hj
    exact ⟨t, run_succ_iff.2 ⟨t, hstep, rfl⟩, hdone, hrsp, hc⟩
  | succ j ih =>
    obtain ⟨u, hstep, -, -, -, hc, -, hmore, hframe⟩ :=
      Proofs.pushblkElementStep s r (elementPort_idle_p hi hr) hs hr
    obtain ⟨hnext, -⟩ := hmore (by omega)
    have hin : u.inputs = [] := hframe.inputs.trans (by simp [hi])
    obtain ⟨t, hrun, hdone, hrsp, hc'⟩ := ih (hframe.resetSeen.trans hs) hin hnext (by dsimp only; omega)
    exact ⟨t, run_succ_iff.2 ⟨u, hstep, hrun⟩, hdone, hrsp, hc'.trans hc⟩

/-- With no PUSHBLK in flight, idle turns carry a POPBLK with `j + 1` elements to go to its response. -/
theorem run_idle_popblk {j : Nat} {s : State} {r : PopInflight} (hs : s.resetSeen = true) (hi : s.inputs = [])
    (hp : s.pInflight = none) (hr : s.cInflight = some r) (hj : r.i + (j + 1) = r.count) :
    ∃ t, Sys2Proof.core.run (j + 1) s = .next t ∧ t.cInflight = none ∧
      t.cRsp = some ⟨.ok, BitVec.ofNat 16 r.count⟩ := by
  induction j generalizing s r with
  | zero =>
    obtain ⟨t, hstep, -, -, -, -, hlast, -⟩ := Proofs.popblkElementStep s r (elementPort_idle_c hi hp hr) hs hr
    exact ⟨t, run_succ_iff.2 ⟨t, hstep, rfl⟩, hlast hj⟩
  | succ j ih =>
    obtain ⟨u, hstep, -, -, -, hp', -, hmore, hframe⟩ :=
      Proofs.popblkElementStep s r (elementPort_idle_c hi hp hr) hs hr
    obtain ⟨hnext, -⟩ := hmore (by omega)
    have hin : u.inputs = [] := hframe.inputs.trans (by simp [hi])
    obtain ⟨t, hrun, hdone⟩ := ih (hframe.resetSeen.trans hs) hin (hp'.trans hp) hnext (by dsimp only; omega)
    exact ⟨t, run_succ_iff.2 ⟨u, hstep, hrun⟩, hdone⟩

end Sys2Proof.Machine

namespace Sys2Proof.Proofs

open Sys2Proof Sys2Proof.Machine

/-- Settles O55: CLEAR leaves the empty queue and the record of the PUSHBLK, and `run_pushblkElements` appends what is left of
the block to it. -/
theorem clearInsidePushblk : Obligations.ClearInsidePushblk := by
  unfold Obligations.ClearInsidePushblk
  intro s r len v h hs hidle hr hi
  have hstep := step_clear hi hs hidle
  obtain ⟨hlt, -⟩ := h.push_inflight r hr
  obtain ⟨t, hrun, hrsp, hdone, -, hcont⟩ := run_pushblkElements (j := r.n - r.i) (rest := [])
    (step_inv h hstep) (by simp [hs]) (by simpa using hr) (by omega) (by simp)
  refine ⟨t, ?_, hrsp, hdone, by simpa using hcont⟩
  rw [Nat.add_comm]
  exact run_succ_iff.2 ⟨_, hstep, hrun⟩

/-- Settles O56: a block in flight has at least one element to go, and each idle turn takes one off. -/
theorem blockCommandsRespond : Obligations.BlockCommandsRespond := by
  unfold Obligations.BlockCommandsRespond
  refine fun s h hs hi => ⟨fun r hr => ?_, fun r hp hr => ?_⟩
  · obtain ⟨hlt, -⟩ := h.push_inflight r hr
    obtain ⟨j, hj⟩ := Nat.exists_eq_add_of_lt hlt
    rw [show r.n - r.i = j + 1 by omega]
    exact run_idle_pushblk hs hi hr hj.symm
  · obtain ⟨hlt, -⟩ := h.pop_inflight r hr
    obtain ⟨j, hj⟩ := Nat.exists_eq_add_of_lt hlt
    rw [show r.count - r.i = j + 1 by omega]
    exact run_idle_popblk hs hi hp hr hj.symm

/-- Settles O8: every turn but reset's asks whether a reset has been seen, a presented command's through `accepts` and
`ignored`. -/
theorem refusedBeforeFirstReset : Obligations.RefusedBeforeFirstReset := by
  unfold Obligations.RefusedBeforeFirstReset
  intro s hs hreset
  have hrefused := afterFirstReset_unseen hs
  unfold step
  split
  · -- an idle turn
    exact hrefused _
  · -- a command presented
    rw [accepts_unseen hs]
    exact hrefused _
  · -- a scheduled element step
    exact hrefused _
  · -- the producer agent writes `PBUF`
    exact hrefused _
  · -- the checksum requester writes `KBUF`
    exact hrefused _
  · -- the codec requester writes `BIN`
    exact hrefused _
  · next rest hi => exact absurd hi (hreset rest)

/-- Settles O58: the step is `resetStep`, whatever was in flight; with `RD = WR` the queue holds nothing. -/
theorem resetFromAnyState : Obligations.ResetFromAnyState := by
  unfold Obligations.ResetFromAnyState
  intro s rest hi
  refine ⟨_, step_reset hi, rfl, rfl, rfl, rfl, rfl, contents_of_occ_zero (occ_of_rd_eq_wr rfl), rfl, rfl, fun x => ?_,
    fun i => ?_⟩
  · cases x <;> exact ⟨rfl, rfl⟩
  · exact ⟨rfl, rfl, rfl, rfl, rfl, rfl⟩

end Sys2Proof.Proofs
end
